-- ==== Sys2Proof/Word.lean ====
section
/-! DEFINITION. The words of the WL804: bytes, 32-bit fields and timers. -/

namespace Sys2Proof

/-- One byte of host memory or of a structure in the lane area. -/
abbrev Byte := BitVec 8

/-- A 32-bit field: an offset, a device clock value, a sequence, a register. -/
abbrev Word32 := BitVec 32

/-- A timer counted in ticks of the device clock (R174): `none` is stopped, `some n` has `n` ticks left, and
`some 0` has fallen due. -/
abbrev Timer := Option Nat

end Sys2Proof
end

