-- ==== Sys2Proof/Syntax.lean ====
section
/-! DEFINITION. The commands of the WL804: one constructor of `Instr` for each row of spec/opcode_table.json. -/

namespace Sys2Proof

/-- Lanes are numbered 0 to 7 (00, "Conventions"). -/
abbrev Lane := Fin 8

/-- Keys are numbered 0 to 127: drive line × 16 + sense line (R20). -/
abbrev Key := Fin 128

/-- The two scanner ports of a lane. -/
inductive Port where
  | a
  | b
deriving DecidableEq, Repr

/-- The keylock positions (chapter 1.3). -/
inductive Position where
  | lock
  | register
  | manager
  | service
deriving DecidableEq, Repr

/-- The lane states (R2). -/
inductive LaneState where
  | disabled
  | active
  | doze
  | off
deriving DecidableEq, Repr

/-- The targets that a LANE_STATE order can name (R8). -/
inductive Target where
  | active
  | doze
  | off
deriving DecidableEq, Repr

/-- What a receiver samples as one character (R43): the eight bits after the start bit, first received lowest, and
the stop bit; or a line held low for longer than one character. -/
inductive RxChar where
  | sampled (bits : Byte) (stop : Bool)
  | heldLow
deriving DecidableEq, Repr

/-- One command of the WL804: one constructor per row of spec/opcode_table.json, with the row's operands. -/
inductive Instr where
  /-- POWER_ON_RESET (R182). -/
  | powerOnReset
  /-- LINK_RESET (R182). -/
  | linkReset
  /-- RUN (R171). -/
  | run
  /-- HALT (R173). -/
  | halt
  /-- RESET, the soft reset (R182). -/
  | reset
  /-- REHEAD_ORDERS (R142). -/
  | reheadOrders
  /-- REHEAD_PAGES (R124). -/
  | reheadPages
  /-- NOTIFY, with the value written (R177). -/
  | notify (value : Word32)
  /-- CAUSE_READ, with the bytes of CAUSE the access includes (R175, R180). -/
  | causeRead (bytes : BitVec 4)
  /-- AREA_WRITE: a write of AREA_HIGH or AREA_LOW, with the bytes the access includes (R175, R176). -/
  | areaWrite (high : Bool) (value : Word32) (bytes : BitVec 4)
  /-- REGISTER_WRITE_OTHER: a write of the window's word `reg` that is ignored (R175). -/
  | registerWriteOther (reg : Fin 8) (value : Word32) (bytes : BitVec 4)
  /-- DMA_ABORT (R168). -/
  | dmaAbort
  /-- HOST_PART_READ_COMPLETE, with the 64 bytes read (R155). -/
  | hostPartReadComplete (data : List Byte)
  /-- LANE_SETTINGS_READ_COMPLETE, with the 128 bytes read (R155). -/
  | laneSettingsReadComplete (data : List Byte)
  /-- STATUS_WRITE_COMPLETE (R164). -/
  | statusWriteComplete
  /-- RELOAD_SETTINGS_READ_COMPLETE, with the 128 bytes read (R147). -/
  | reloadSettingsReadComplete (data : List Byte)
  /-- RELOAD_ECHO_WRITE_COMPLETE (R147). -/
  | reloadEchoWriteComplete
  /-- PAGE_LINK_READ_COMPLETE, with the link read (R120). -/
  | pageLinkReadComplete (link : Word32)
  /-- PAGE_HEADER_READ_COMPLETE, with the state field read (R120). -/
  | pageHeaderReadComplete (state : Byte)
  /-- RECORD_WRITE_COMPLETE (R126). -/
  | recordWriteComplete
  /-- HEADER_BODY_WRITE_COMPLETE (R131). -/
  | headerBodyWriteComplete
  /-- CLOSED_MARKER_WRITE_COMPLETE (R131). -/
  | closedMarkerWriteComplete
  /-- LINGER_EXPIRY (R128). -/
  | lingerExpiry
  /-- JOURNAL_RECHECK_EXPIRY (R121). -/
  | journalRecheckExpiry
  /-- ORDER_LINK_READ_COMPLETE, with the link read (R138). -/
  | orderLinkReadComplete (link : Word32)
  /-- SLIP_READ_COMPLETE, with the 64 bytes read (R138). -/
  | slipReadComplete (data : List Byte)
  /-- TAKEN_WRITE_COMPLETE (R143). -/
  | takenWriteComplete
  /-- SLIP_BODY_WRITE_COMPLETE (R143). -/
  | slipBodyWriteComplete
  /-- SLIP_STATE_WRITE_COMPLETE (R143). -/
  | slipStateWriteComplete
  /-- WALKER_RECHECK_EXPIRY (R139). -/
  | walkerRecheckExpiry
  /-- DRAWER_KICK as the drawer controller takes it (R90). -/
  | drawerKick (lane : Lane)
  /-- DRAWER_LOCKOUT as the drawer controller takes it (R92). -/
  | drawerLockout (lane : Lane)
  /-- DRAWER_RELEASE as the drawer controller takes it (R93). -/
  | drawerRelease (lane : Lane)
  /-- SCANNER_SET as the named port takes it (R54). -/
  | scannerSet (lane : Lane) (port : Port) (enable : Bool)
  /-- SCAN_CONFIRM as the named port takes it: GOOD, or BAD when `bad` (R57). -/
  | scanConfirm (lane : Lane) (port : Port) (bad : Bool)
  /-- KEY_IMAGE_READ as the keyboard scanner takes it (R146). -/
  | keyImageRead (lane : Lane)
  /-- LANE_RELOAD as the settings unit takes it (R147). -/
  | laneReload (lane : Lane)
  /-- LANE_STATE as lane state control takes it (R8). -/
  | laneState (lane : Lane) (target : Target)
  /-- COUNTERS_READ as the lane counters take it (R148). -/
  | countersRead (lane : Lane) (clear : Bool)
  /-- FLUSH as the journal writer takes it (R130). -/
  | flush
  /-- POLICY_LOCK as the settings unit takes it (R151). -/
  | policyLock
  /-- JOURNAL_MARK as the journal writer takes it, with the slip's tag (R150). -/
  | journalMark (tag : Word32)
  /-- MARK_ENTRY (R111). -/
  | markEntry
  /-- IDLE_TIMER_EXPIRY (R4). -/
  | idleTimerExpiry (lane : Lane)
  /-- KEYLOCK_VALID_READING: the contact reading changes to the one contact of `pos` (R13). -/
  | keylockValidReading (lane : Lane) (pos : Position)
  /-- KEYLOCK_INVALID_READING: the contact reading changes to none or several contacts closed (R14). -/
  | keylockInvalidReading (lane : Lane) (contacts : BitVec 4)
  /-- KEYLOCK_SETTLE_EXPIRY (R13). -/
  | keylockSettleExpiry (lane : Lane)
  /-- KEYLOCK_INDETERMINATE_EXPIRY (R14). -/
  | keylockIndeterminateExpiry (lane : Lane)
  /-- PASS, with the raw reading of each key (R22). -/
  | pass (lane : Lane) (raw : BitVec 128)
  /-- BASELINE_CAPTURE_END (R10). -/
  | baselineCaptureEnd (lane : Lane)
  /-- TYPEMATIC_EXPIRY (R33). -/
  | typematicExpiry (lane : Lane)
  /-- ANY_KEY_EXAMINATION: at least one used sense line active, or none (R35). -/
  | anyKeyExamination (lane : Lane) (active : Bool)
  /-- ANY_KEY_DETECTION (R6). -/
  | anyKeyDetection (lane : Lane)
  /-- CHARACTER_RECEIVED (R43). -/
  | characterReceived (lane : Lane) (port : Port) (char : RxChar)
  /-- GAP_TIMER_EXPIRY (R48). -/
  | gapTimerExpiry (lane : Lane) (port : Port)
  /-- TONE_STEP_EXPIRY (R55). -/
  | toneStepExpiry (lane : Lane) (port : Port)
  /-- DRAWER_SENSOR_CHANGE, with the new raw reading (R78). -/
  | drawerSensorChange (lane : Lane) (isOpen : Bool)
  /-- DRAWER_SENSOR_SETTLE_EXPIRY (R78). -/
  | drawerSensorSettleExpiry (lane : Lane)
  /-- KICK_PULSE_END (R81). -/
  | kickPulseEnd (lane : Lane)
  /-- CONFIRM_EXPIRY (R81). -/
  | confirmExpiry (lane : Lane)
  /-- AJAR_ALERT_MARK (R85). -/
  | ajarAlertMark (lane : Lane)
  /-- AJAR_FAULT_MARK (R85). -/
  | ajarFaultMark (lane : Lane)
  /-- PRESENCE_TIMER_EXPIRY (R87). -/
  | presenceTimerExpiry (lane : Lane)
  /-- PRESENCE_MEASUREMENT_END: whether the sensing line followed the reversed bias (R88). -/
  | presenceMeasurementEnd (lane : Lane) (followed : Bool)
  /-- RECEIVE_LINE_RETURNED_HIGH (R43). -/
  | receiveLineReturnedHigh (lane : Lane) (port : Port)
deriving DecidableEq, Repr

end Sys2Proof
end

