-- ==== Sys2Proof/WellFormed.lean ====
section
/-! DEFINITION. The commands whose operands the link and the lane equipment can deliver. -/

namespace Sys2Proof

/-- Whether a write of the register window's word `reg` is one that R175 says is ignored: IDENT, CAUSE, an unused
word, or a CONTROL write that leaves out byte 0 or carries code 0 or 6 to 15. -/
def writeIsOther (reg : Fin 8) (value : Word32) (bytes : BitVec 4) : Bool :=
  match reg.val with
  | 1 => !bytes.getLsbD 0 || value.toNat % 16 == 0 || decide (6 ≤ value.toNat % 16)
  | 2 | 3 | 4 => false
  | _ => true

/-- Exactly one of the four keylock contacts is closed: the readings R13 calls valid. -/
def oneContact (contacts : BitVec 4) : Bool :=
  contacts == 1 || contacts == 2 || contacts == 4 || contacts == 8

/-- The operand checks: a read returns as many bytes as it asked for (R155, R138), a register access includes at
least one byte (R175), an ignored write is one of those R175 lists, and an invalid keylock reading is not a valid one
(R13, R14). -/
def Instr.wf : Instr → Bool
  | .hostPartReadComplete data => data.length == 64
  | .laneSettingsReadComplete data => data.length == 128
  | .reloadSettingsReadComplete data => data.length == 128
  | .slipReadComplete data => data.length == 64
  | .causeRead bytes => bytes != 0
  | .areaWrite _ _ bytes => bytes != 0
  | .registerWriteOther reg value bytes => bytes != 0 && writeIsOther reg value bytes
  | .keylockInvalidReading _ contacts => !oneContact contacts
  | _ => true

end Sys2Proof
end

