-- ==== Sys2Proof/Decode.lean ====
section
/-! DEFINITION. From a register write to the command it is (R170, R175), and the table's words, of which there are none. -/

namespace Sys2Proof

/-- The command that a write of the register window is (R170, R175, R176, R177): `reg` is the word of the 32-byte window
(offset divided by 4), `bytes` the bytes of that word the access includes. CONTROL holds the command code in bits 3 to 0
and is a command only when byte 0 is written. -/
def commandOfWrite (reg : Fin 8) (value : Word32) (bytes : BitVec 4) : Instr :=
  match reg.val with
  | 1 =>
    if bytes.getLsbD 0 then
      match value.toNat % 16 with
      | 1 => .run
      | 2 => .halt
      | 3 => .reset
      | 4 => .reheadOrders
      | 5 => .reheadPages
      | _ => .registerWriteOther reg value bytes
    else .registerWriteOther reg value bytes
  | 2 => .areaWrite false value bytes
  | 3 => .areaWrite true value bytes
  | 4 => .notify value
  | _ => .registerWriteOther reg value bytes

/-- No row of spec/opcode_table.json gives bits, so no word spells a command. -/
def decodeTableWord (_nbits _w : Nat) : Option Instr := none

end Sys2Proof
end

