-- ==== Sys2Proof/Config.lean ====
section
/-! DEFINITION. What the manual leaves open: the free values of the model. -/

namespace Sys2Proof

/-- FREE VALUE (log 6). R134 and R153: a write that is aborted, or that a reset abandons, may leave all, part or none
of its bytes in host memory. `abortLands n i` says whether byte `i` of the `n`-th such write is stored. It has no body:
every statement holds for every choice of it. -/
opaque Config.abortLands : Nat → Nat → Bool

end Sys2Proof
end

