-- ==== Sys2Proof/Machine/State.lean ====
section
/-! DEFINITION. The state of the WL804 as plain data, and its value after a power-on reset. -/

namespace Sys2Proof.Machine

/-! ## Faults and refusals -/

/-- Why a step stops: never. FAULTED is a state of the device (R181), not a stop of the machine, and every command the
manual describes goes on to a next state, so there is no constructor. Safe. -/
inductive Fault where
deriving DecidableEq, Repr

/-- Why a command is refused. -/
inductive Refusal where
  /-- Raised by no meaning: every row of the table has its effect. Kept because the host requires the name. Safe. -/
  | notModelled (mnemonic : String)
deriving DecidableEq, Repr

/-! ## Run control (chapter 10) -/

/-- Device states (R170). -/
inductive DeviceState where
  | resetIdle
  | loading
  | running
  | stopping
  | stopped
  | faulted
deriving DecidableEq, Repr

/-- Fault reasons (R181). -/
inductive FaultReason where
  | none
  | anchorBad
  | linkAbort
deriving DecidableEq, Repr

/-- The three resets (R182). -/
inductive ResetKind where
  | powerOn
  | link
  | soft
deriving DecidableEq, Repr

/-- The seven causes, in the bit order of CAUSE (R175). -/
inductive Cause where
  | journal
  | order
  | stall
  | starved
  | chain
  | stats
  | fault
deriving DecidableEq, Repr

/-- Run control and the registers it shows (R170 to R182). -/
structure RunControl where
  device : DeviceState
  fault : FaultReason
  lastReset : ResetKind
  runCount : BitVec 16
  /-- The device clock (R174). -/
  clock : Word32
  /-- The pending cause set, in the bit positions of CAUSE (R178). -/
  causes : BitVec 7
  /-- The cause enable mask (R179). -/
  enable : BitVec 7
  /-- The drain mark "walker finished" (R173). -/
  walkerDone : Bool
  /-- The drain mark "journal drained" (R173). -/
  journalDone : Bool
  areaLow : Word32
  areaHigh : Word32
deriving DecidableEq, Repr

/-! ## Lane settings (chapters 1 to 5, 9) -/

/-- Serial formats (R41). -/
inductive CharFormat where
  | f8n1
  | f7e1
  | f7o1
deriving DecidableEq, Repr

/-- The effective settings of one scanner port, in the host's units (R41). -/
structure PortSettings where
  enable : Bool
  rate : Nat
  format : CharFormat
  terminator : Byte
  /-- Prefix mode ONE. -/
  markMode : Bool
  minLength : Nat
  gapMs : Nat
  check : Bool
  /-- Confirm mode HOST. -/
  hostConfirm : Bool
  reportDuplicates : Bool
  toneMs : Nat
deriving DecidableEq, Repr

/-- The nine drawer fields, in the host's units (R76, R161). -/
structure DrawerSettings where
  enable : Bool
  kickMs : Nat
  confirmMs : Nat
  alertS : Nat
  faultS : Nat
  settleMs : Nat
  presenceS : Nat
  lockoutCount : Nat
  lockoutMin : Nat
deriving DecidableEq, Repr

/-- The effective settings of a lane, in the host's units (R41, R60, R76, R158); `selector` is the defaults selector as
read (R156). -/
structure LaneSettings where
  enable : Bool
  selector : Byte
  /-- Bit 0 KEY, 1 SCAN_A, 2 SCAN_B, 3 KEYLOCK, 4 DRAWER. -/
  wake : BitVec 5
  idleMin : Nat
  drive : Nat
  sense : Nat
  pass : Nat
  debounce : Nat
  rollover : Nat
  isolated : Bool
  settleMs : Nat
  typematicMs : Nat
  repeatMs : Nat
  dupWindowMs : Nat
  inhibit : BitVec 8
  repeatMap : BitVec 128
  portA : PortSettings
  portB : PortSettings
  drawer : DrawerSettings
deriving DecidableEq, Repr

/-- No port settings: what a reset leaves (R59), held as zeros (log 9). -/
def PortSettings.none : PortSettings :=
  { enable := false, rate := 0, format := .f8n1, terminator := 0, markMode := false, minLength := 0, gapMs := 0,
    check := false, hostConfirm := false, reportDuplicates := false, toneMs := 0 }

/-- No drawer settings: what a reset leaves (R99), held as zeros (log 9). -/
def DrawerSettings.none : DrawerSettings :=
  { enable := false, kickMs := 0, confirmMs := 0, alertS := 0, faultS := 0, settleMs := 0, presenceS := 0,
    lockoutCount := 0, lockoutMin := 0 }

/-- No lane settings: what a reset leaves (R19, R40, R169), held as zeros (log 9). -/
def LaneSettings.none : LaneSettings :=
  { enable := false, selector := 0, wake := 0, idleMin := 0, drive := 0, sense := 0, pass := 0, debounce := 0,
    rollover := 0, isolated := false, settleMs := 0, typematicMs := 0, repeatMs := 0, dupWindowMs := 0, inhibit := 0,
    repeatMap := 0, portA := .none, portB := .none, drawer := .none }

/-! ## The lane unit (chapters 1 to 5) -/

/-- The wake sources, in the bit order of the wake mask (R7). -/
inductive WakeSource where
  | key
  | scanA
  | scanB
  | keylock
  | drawer
deriving DecidableEq, Repr

/-- The keylock reader (R12 to R15). -/
structure Keylock where
  position : Position
  candidate : Option Position
  settle : Timer
  indet : Timer
  running : Bool
  /-- The four contact inputs as they stand, bit n the contact of the position coded n (log 7). -/
  contacts : BitVec 4
deriving DecidableEq, Repr

/-- Scan modes (R21). -/
inductive ScanMode where
  | idle
  | scanning
  | anyKey
deriving DecidableEq, Repr

/-- Why a key stands in the blocked list (R26, R28). -/
inductive BlockReason where
  | ghost
  | rollover
deriving DecidableEq, Repr

/-- The any-key stages (R35). -/
inductive AnyStage where
  | waitClear
  | armed
deriving DecidableEq, Repr

/-- A running typematic timer: its key, whether it is in the repeat phase, and its ticks left (R33). -/
structure Typematic where
  key : Key
  repeating : Bool
  left : Nat
deriving DecidableEq, Repr

/-- The keyboard scanner (chapter 2). A key's debounced state is down exactly when it stands in the image or the
blocked list (R20), so it has no field of its own (log 10). -/
structure Keyboard where
  mode : ScanMode
  counts : Vector Nat 128
  /-- The key image, oldest first. -/
  image : List Key
  /-- The blocked list, oldest first. -/
  blocked : List (Key × BlockReason)
  typematic : Option Typematic
  anyStage : AnyStage
  anyCount : Nat
  /-- Any-key detection has occurred and ANY_KEY_DETECTION is due (log 4). -/
  detected : Bool
  /-- Ticks to the next pass or examination. -/
  passTimer : Timer
  /-- A baseline capture in progress, with the passes it has left (R10). -/
  capture : Option Nat
deriving DecidableEq, Repr

/-- Frame states (chapter 3.3). -/
inductive FrameState where
  | waiting
  | assembling
  | discarding
deriving DecidableEq, Repr

/-- A TONE pattern in progress: GOOD or BAD, the step it is in from 0, its T in ticks, and the ticks left of the step
(R55). -/
structure Tone where
  bad : Bool
  step : Nat
  period : Nat
  left : Nat
deriving DecidableEq, Repr

/-- A scanner port (chapter 3). -/
structure ScanPort where
  /-- Receiver ON (R42). -/
  on : Bool
  /-- The line was received as held low and has not returned high (R43). -/
  lineLow : Bool
  frame : FrameState
  mark : Option Byte
  text : List Byte
  damaged : Bool
  tooLong : Bool
  gap : Timer
  orderEnable : Bool
  toneOn : Bool
  tone : Option Tone
deriving DecidableEq, Repr

/-- A label as the acceptor keeps it (chapter 4). -/
structure LastLabel where
  text : List Byte
  port : Port
  time : Word32
deriving DecidableEq, Repr

/-- The label acceptor (chapter 4). -/
structure Acceptor where
  last : Option LastLabel
  keySince : Bool
deriving DecidableEq, Repr

/-- Drawer conditions, in code order (chapter 5.4). -/
inductive Condition where
  | closed
  | kicking
  | isOpen
  | ajar
  | forced
  | jammed
  | absent
deriving DecidableEq, Repr

/-- Ajar stages (R85). -/
inductive AjarStage where
  | none
  | alertPending
  | faultPending
deriving DecidableEq, Repr

/-- The drawer controller (chapter 5). -/
structure Drawer where
  running : Bool
  cond : Condition
  kickOut : Bool
  pulse : Timer
  confirm : Timer
  /-- The confirm timeout of the kick in progress, in ticks (log 16). -/
  confirmTicks : Nat
  /-- The time of the accepted kick (R98). -/
  kickStart : Word32
  settledOpen : Bool
  /-- The raw open-sensor input as it stands (log 7). -/
  rawOpen : Bool
  settle : Timer
  openedAt : Word32
  stage : AjarStage
  alert : Timer
  faultMark : Timer
  /-- The ajar marks the opening started with, in ticks (R85, log 16). -/
  alertTicks : Nat
  faultTicks : Nat
  ajarFault : Bool
  presence : Timer
  /-- A measurement in progress, with the ticks left of its 2; the bias is reversed while it runs (R87). -/
  measuring : Timer
  failCount : Nat
  /-- The forced-open history, oldest first (R84). -/
  history : List Word32
  /-- The lockout latch. -/
  latch : Bool
deriving DecidableEq, Repr

/-- The eight lane counters, in counter order (R148). -/
inductive Counter where
  | labelsOk
  | labelsRefused
  | duplicates
  | keysDown
  | kicks
  | forced
  | jams
  | lost
deriving DecidableEq, Repr

/-- The lane context, with what the other blocks keep for each lane. -/
structure LaneUnit where
  configured : Bool
  laneState : LaneState
  idle : Timer
  settings : LaneSettings
  /-- The clamped and drawer-held flags of the lane's last load (R158, R161). -/
  clamped : Bool
  held : Bool
  /-- The drawer store (R161). -/
  store : Option DrawerSettings
  /-- The lane's rewrite-pending flag (R162). -/
  rewrite : Bool
  keylock : Keylock
  kb : Keyboard
  portA : ScanPort
  portB : ScanPort
  acceptor : Acceptor
  drawer : Drawer
  counters : Vector (BitVec 16) 8
  /-- The high-noted flags, bit n for counter n (R166). -/
  noted : BitVec 8
  /-- The lane sequence (R103). -/
  seq : BitVec 16
  /-- The pending loss counts of classes 0 to 3 (R107). -/
  losses : Vector Nat 4
deriving DecidableEq, Repr

/-! ## Records and staging (chapters 6 and 11) -/

/-- Causes of a KEY_IMAGE record (R39). -/
inductive ImageCause where
  | baseline
  | resync
  | read
  | reload
deriving DecidableEq, Repr

/-- Causes of a LANE_STATE record (R2). -/
inductive StateCause where
  | order
  | idle
  | wake (source : WakeSource)
  | settings
deriving DecidableEq, Repr

/-- Causes of a DRAWER record, in code order (R98, chapter 11.4). -/
inductive DrawerCause where
  | baseline
  | order
  | kick
  | late
  | manual
  | ajar
  | close
  | present
  | release
  | settings
  | forced
  | timeout
  | ajarFault
  | absent
  | lockout
deriving DecidableEq, Repr

/-- Reasons of a LABEL_REFUSED record with what each carries (chapter 11.4). -/
inductive RefuseReason where
  | damaged (length : Nat)
  | long (length : Nat)
  | fragment (held : Nat) (damaged tooLong : Bool)
  | short (length : Nat)
  | check (expected : Nat) (text : List Byte)
  | held (length : Nat)
  | cut (held : Nat)
deriving DecidableEq, Repr

/-- What a record says, by kind (chapter 11.4). -/
inductive RecordBody where
  | keyDown (key : Key) (count : Nat)
  | keyUp (key : Key) (count : Nat)
  | keyRepeat (key : Key) (count : Nat)
  | keyBlocked (key : Key) (reason : BlockReason) (count : Nat)
  | keyImage (cause : ImageCause) (bitmap : BitVec 128) (length blocked : Nat)
  | keylock (new old : Position) (indeterminate : Bool)
  | label (port : Port) (mark : Option Byte) (passed : Bool) (text : List Byte)
  | labelRefused (port : Port) (reason : RefuseReason)
  | labelDuplicate (port : Port) (elapsed : Word32)
  | drawer (new old : Condition) (cause : DrawerCause) (latch ajarFault : Bool) (value : Word32)
  | laneState (new : LaneState) (cause : StateCause)
  | gap (c0 c1 c2 c3 : Nat)
  | mark (tag : Word32)
  | runStart (count : BitVec 16)
deriving DecidableEq, Repr

/-- A record in the staging queue: `lane` is `none` for lane 0xFF (R103). -/
structure StagedRecord where
  body : RecordBody
  lane : Option Lane
  time : Word32
  seq : BitVec 16
deriving DecidableEq, Repr

/-- The staging part of the journal writer (chapter 6). The fill is the queue's length. -/
structure Staging where
  queue : List StagedRecord
  hold : Bool
  devSeq : BitVec 16
  /-- The tag of a MARK offer that waits (R111). -/
  markWaiting : Option Word32
deriving DecidableEq, Repr

/-! ## The journal writer's page work (chapter 7) -/

/-- Journal states (R117). -/
inductive JournalState where
  | idle
  | needPage
  | filling
  | starved
  | broken
  | halted
deriving DecidableEq, Repr

/-- Close reasons, coded from 1 (chapter 11.4). -/
inductive CloseReason where
  | full
  | linger
  | urgent
  | flush
  | stop
deriving DecidableEq, Repr

/-- The open page (R125, R126). -/
structure OpenPage where
  offset : Word32
  used : Nat
  count : Nat
  firstSeq : Option Word32
  openTime : Word32
  lanes : BitVec 8
  /-- The close in flight, with the time it began (R131). -/
  closing : Option CloseReason
  closeTime : Word32
  /-- The linger timer expired during a record write: the page closes with LINGER when it completes (R128). -/
  lingerDue : Bool
deriving DecidableEq, Repr

/-- The flush point (R130): a record, with the number of records ahead of it in the queue, or the open page. -/
inductive FlushPoint where
  | none
  | record (ahead : Nat)
  | page
deriving DecidableEq, Repr

/-- The page work of the journal writer (chapter 7). -/
structure Journal where
  state : JournalState
  /-- The link source is ANCHOR; otherwise LAST_CLOSED (R118). -/
  fromAnchor : Bool
  lastClosed : Option Word32
  page : Option OpenPage
  linger : Timer
  recheck : Timer
  pageSeq : Word32
  journalSeq : Word32
  unannounced : Nat
  /-- The starved episode flag (R121). -/
  episode : Bool
  stale : Option Word32
  /-- The re-read pending flag (R122). -/
  reread : Bool
  /-- REHEAD_PAGES was taken while a re-read was in flight (R124). -/
  rehead : Bool
  flush : FlushPoint
deriving DecidableEq, Repr

/-! ## The order walker (chapter 8) -/

/-- Walker states, in code order (chapter 11.2). -/
inductive WalkerState where
  | idle
  | fetching
  | working
  | waiting
  | parked
  | broken
  | halted
deriving DecidableEq, Repr

/-- An order that passed the slip-level checks, as it is handed to its owner (R143, chapter 8.3). -/
inductive Order where
  | drawerKick (lane : Lane)
  | drawerLockout (lane : Lane)
  | drawerRelease (lane : Lane)
  | scannerSet (lane : Lane) (port : Port) (enable : Bool)
  | scanConfirm (lane : Lane) (port : Port) (bad : Bool)
  | keyImageRead (lane : Lane)
  | laneReload (lane : Lane)
  | laneState (lane : Lane) (target : Target)
  | countersRead (lane : Lane) (clear : Bool)
  | flush
  | policyLock
  | journalMark (tag : Word32)
deriving DecidableEq, Repr

/-- Outcome codes, in code order (chapter 11.3). -/
inductive SlipOutcome where
  | ok
  | badKind
  | badLane
  | badParam
  | laneOff
  | laneMode
  | keylock
  | drawerBusy
  | drawerLocked
  | drawerAbsent
  | drawerDisabled
  | portOff
deriving DecidableEq, Repr

/-- The answer to an order: outcome, detail, and the bytes its result begins with (R143, R185). -/
structure Answer where
  outcome : SlipOutcome
  detail : BitVec 16
  result : List Byte
deriving DecidableEq, Repr

/-- The copy of a slip that the walker reads (R138). -/
structure Slip where
  offset : Word32
  kind : Byte
  lane : Byte
  flags : Byte
  tag : Word32
  params : List Byte
deriving DecidableEq, Repr

/-- The point that the slip in hand has reached (R143). -/
inductive SlipStage where
  | none
  /-- The TAKEN write is requested. -/
  | taking
  /-- The checks are passed; the owner takes the order (log 3). -/
  | handed (order : Order)
  /-- The owner's work takes time. -/
  | waiting
  /-- The body write is requested. -/
  | body (answer : Answer)
  /-- The state write is requested. -/
  | finish
deriving DecidableEq, Repr

/-- The order walker (chapter 8). -/
structure Walker where
  state : WalkerState
  /-- The link source is ANCHOR; otherwise LAST_FINISHED (R136). -/
  fromAnchor : Bool
  lastFinished : Option Word32
  current : Option Slip
  stage : SlipStage
  stale : Option Word32
  reread : Bool
  recheck : Timer
  /-- The fetch in flight is a re-read of a parked walker (R139). -/
  isReread : Bool
  /-- REHEAD_ORDERS was taken while a re-read was in flight (R142). -/
  rehead : Bool
deriving DecidableEq, Repr

/-! ## The settings unit (chapter 9) -/

/-- The effective host part (R116, R157): the settings, the defaults selector as read, the clamped flag, and the area
length. -/
structure HostSettings where
  lanesInUse : Nat
  pageCode : Nat
  notice : Nat
  urgent : Nat
  flowHigh : Nat
  flowLow : Nat
  lingerMs : Nat
  recheckMs : Nat
  enable : BitVec 7
  areaLength : Nat
  selector : Byte
  clamped : Bool
deriving DecidableEq, Repr

/-- No host settings: what a reset leaves (R114, R169), held as zeros (log 9). -/
def HostSettings.none : HostSettings :=
  { lanesInUse := 0, pageCode := 0, notice := 0, urgent := 0, flowHigh := 0, flowLow := 0, lingerMs := 0,
    recheckMs := 0, enable := 0, areaLength := 0, selector := 0, clamped := false }

/-- A target of a status write (R155 step 4). -/
inductive StatusTarget where
  | device
  | lane (l : Lane)
deriving DecidableEq, Repr

/-- The progress of the load (R155). -/
inductive LoadStep where
  | idle
  | hostPart
  | laneRecord (l : Lane)
  /-- Step 4, with the status writes not yet requested. -/
  | status (left : List StatusTarget)
deriving DecidableEq, Repr

/-- The reload in hand (R147, R160): before its settings are delivered, or with the answer its echo write will give. -/
inductive Reload where
  | read (l : Lane)
  | echo (l : Lane) (answer : Answer)
deriving DecidableEq, Repr

/-- Stall reasons, in code order (chapter 11.2). -/
inductive StallReason where
  | none
  | stalePage
  | staleSlip
  | badPageLink
  | badSlipLink
deriving DecidableEq, Repr

/-- Who recorded the stall shown (R163). -/
inductive StallOwner where
  | none
  | journal
  | walker
deriving DecidableEq, Repr

/-- The stall shown (R163). -/
structure Stall where
  offset : Word32
  reason : StallReason
  owner : StallOwner
deriving DecidableEq, Repr

/-- The settings unit (chapter 9); what it keeps for each lane stands in `LaneUnit`. -/
structure SettingsUnit where
  host : HostSettings
  policyLock : Bool
  devRewrite : Bool
  reload : Option Reload
  stall : Stall
  load : LoadStep
  /-- The host part of the load in progress, clamped (R155 step 1). -/
  loadHost : HostSettings
  /-- The lane records of the load in progress, in lane order (R155 step 2). -/
  loadRecords : List (List Byte)
deriving DecidableEq, Repr

/-! ## The DMA arbiter (chapter 9.7) -/

/-- The three requesters (R167). -/
inductive Requester where
  | journal
  | walker
  | settings
deriving DecidableEq, Repr

/-- What a request is for. -/
inductive Purpose where
  | hostPartRead
  | laneSettingsRead (l : Lane)
  | deviceStatusWrite
  | laneStatusWrite (l : Lane)
  | reloadRead (l : Lane)
  | reloadEcho (l : Lane)
  | pageLinkRead
  | pageHeaderRead (offset : Word32)
  | recordWrite
  | headerBodyWrite
  | closedMarkerWrite
  | orderLinkRead
  | slipRead (offset : Word32)
  | takenWrite
  | slipBodyWrite
  | slipStateWrite
deriving DecidableEq, Repr

/-- A request of 1 to 128 bytes at an offset of the lane area (R167): a write carries its bytes, a read has none. -/
structure Request where
  purpose : Purpose
  offset : Word32
  length : Nat
  data : List Byte
deriving DecidableEq, Repr

/-- The granted request, with the base of the lane area it was issued at (R167, R176). -/
structure Grant where
  who : Requester
  req : Request
  base : BitVec 64
deriving DecidableEq, Repr

/-- The DMA arbiter (R167, R168). -/
structure Arbiter where
  waitJ : Option Request
  waitW : Option Request
  waitS : Option Request
  granted : Option Grant
  last : Requester
deriving DecidableEq, Repr

/-! ## The whole state -/

/-- The state of the WL804, and the queue of the commands that wait for it. -/
structure State where
  /-- The commands that wait, first in, first out. -/
  pending : List Instr
  run : RunControl
  lanes : Vector LaneUnit 8
  staging : Staging
  journal : Journal
  walker : Walker
  unit : SettingsUnit
  dma : Arbiter
  /-- The bytes of host memory that the part's writes have stored, by address, in canonical form (log 5). -/
  hostMem : List Host.Cell
  /-- The data that the last read of CAUSE returned (log 11). -/
  causeReadData : Word32
  /-- How many free values have been used (log 6). -/
  freeUsed : Nat
deriving DecidableEq, Repr

/-! ## Reset values -/

/-- R182, power-on reset. -/
def RunControl.reset : RunControl :=
  { device := .resetIdle, fault := .none, lastReset := .powerOn, runCount := 0, clock := 0, causes := 0, enable := 0,
    walkerDone := false, journalDone := false, areaLow := 0, areaHigh := 0 }

/-- R19; the contacts are log 7. -/
def Keylock.reset : Keylock :=
  { position := .lock, candidate := none, settle := none, indet := none, running := false, contacts := 0 }

/-- R40. -/
def Keyboard.reset : Keyboard :=
  { mode := .idle, counts := Vector.replicate 128 0, image := [], blocked := [], typematic := none,
    anyStage := .waitClear, anyCount := 0, detected := false, passTimer := none, capture := none }

/-- R59. -/
def ScanPort.reset : ScanPort :=
  { on := false, lineLow := false, frame := .waiting, mark := none, text := [], damaged := false, tooLong := false,
    gap := none, orderEnable := false, toneOn := false, tone := none }

/-- R75. -/
def Acceptor.reset : Acceptor := { last := none, keySince := false }

/-- R99, power-on reset; the raw input is log 7, the periods in force log 8. -/
def Drawer.reset : Drawer :=
  { running := false, cond := .closed, kickOut := false, pulse := none, confirm := none, confirmTicks := 0,
    kickStart := 0, settledOpen := false, rawOpen := false, settle := none, openedAt := 0, stage := .none,
    alert := none, faultMark := none, alertTicks := 0, faultTicks := 0, ajarFault := false, presence := none,
    measuring := none, failCount := 0, history := [], latch := false }

/-- R19, R40, R59, R75, R99, R114, R165, R169, power-on reset. -/
def LaneUnit.reset : LaneUnit :=
  { configured := false, laneState := .disabled, idle := none, settings := .none, clamped := false, held := false,
    store := none, rewrite := false, keylock := .reset, kb := .reset, portA := .reset, portB := .reset,
    acceptor := .reset, drawer := .reset, counters := Vector.replicate 8 0, noted := 0, seq := 0,
    losses := Vector.replicate 4 0 }

/-- R114. -/
def Staging.reset : Staging := { queue := [], hold := false, devSeq := 0, markWaiting := none }

/-- R135. -/
def Journal.reset : Journal :=
  { state := .idle, fromAnchor := true, lastClosed := none, page := none, linger := none, recheck := none, pageSeq := 0,
    journalSeq := 0, unannounced := 0, episode := false, stale := none, reread := false, rehead := false, flush := .none }

/-- R154. -/
def Walker.reset : Walker :=
  { state := .idle, fromAnchor := true, lastFinished := none, current := none, stage := .none, stale := none,
    reread := false, recheck := none, isReread := false, rehead := false }

/-- R163: no stall shown. -/
def Stall.none : Stall := { offset := 0, reason := .none, owner := .none }

/-- R169, power-on reset. -/
def SettingsUnit.reset : SettingsUnit :=
  { host := .none, policyLock := false, devRewrite := false, reload := none, stall := .none, load := .idle,
    loadHost := .none, loadRecords := [] }

/-- R168, R182: the settings unit counts as granted last. -/
def Arbiter.reset : Arbiter := { waitJ := none, waitW := none, waitS := none, granted := none, last := .settings }

/-- The part right after a power-on reset (R182), with no command waiting. -/
def State.reset : State :=
  { pending := [], run := .reset, lanes := Vector.replicate 8 .reset, staging := .reset, journal := .reset,
    walker := .reset, unit := .reset, dma := .reset, hostMem := [], causeReadData := 0, freeUsed := 0 }

end Sys2Proof.Machine
end

