-- ==== Sys2Proof/Machine/Bytes.lean ====
section
/-! DEFINITION. Little-endian fields, byte blocks, and the conversions of settings to ticks (R159, R183). -/

namespace Sys2Proof.Machine

/-- Byte `i` of a block; a byte beyond its end reads 0 (log 31). -/
def byteAt (data : List Byte) (i : Nat) : Byte := data.getD i 0

/-- The 1-byte field at `i`. -/
def field1 (data : List Byte) (i : Nat) : Nat := (byteAt data i).toNat

/-- The 2-byte little-endian field at `i` (00 "Memory"). -/
def field2 (data : List Byte) (i : Nat) : Nat := field1 data i + 256 * field1 data (i + 1)

/-- The 4-byte little-endian field at `i` (00 "Memory"). -/
def field4 (data : List Byte) (i : Nat) : Word32 :=
  BitVec.ofNat 32 (field2 data i + 65536 * field2 data (i + 2))

/-- The lowest `n` bytes of `v`, lowest first. -/
def bytesOf : Nat → Nat → List Byte
  | 0, _ => []
  | n + 1, v => BitVec.ofNat 8 v :: bytesOf n (v / 256)

/-- A 1-byte field. -/
def byte1 (v : Nat) : List Byte := bytesOf 1 v

/-- A 2-byte field. -/
def byte2 (v : Nat) : List Byte := bytesOf 2 v

/-- A 4-byte field. -/
def byte4 (v : Word32) : List Byte := bytesOf 4 v.toNat

/-- A flag as the 1-byte value 0 or 1. -/
def flagByte (b : Bool) : List Byte := byte1 b.toNat

/-- A set of `w` flags as the bytes that hold it, bit 0 lowest (chapter 11). -/
def maskBytes {w : Nat} (n : Nat) (v : BitVec w) : List Byte := bytesOf n v.toNat

/-- `n` bytes: those of `data`, cut or filled with 0 (R183: a byte that names no field is written as 0). -/
def padTo (n : Nat) (data : List Byte) : List Byte := data.take n ++ List.replicate (n - data.length) 0

/-- Milliseconds in ticks: ceil(ms × 1024 / 1000) (R159). -/
def msTicks (ms : Nat) : Nat := (ms * 1024 + 999) / 1000

/-- Seconds in ticks (R159). -/
def secTicks (s : Nat) : Nat := s * 1024

/-- Minutes in ticks (R159). -/
def minTicks (m : Nat) : Nat := m * 61440

/-- A tick count as it stands in a 32-bit field. -/
def word (n : Nat) : Word32 := BitVec.ofNat 32 n

/-- A timer started with `n` ticks that does not run when `n` is 0. -/
def startUnlessZero (n : Nat) : Timer := if n = 0 then none else some n

/-- A timer that runs and has counted down to 0. -/
def isDue (t : Timer) : Bool := t == some 0

/-- One tick of a timer: a stopped timer stays stopped and a timer that is due stays due until its expiry is taken
(log 1, log 2). -/
def tickTimer (t : Timer) : Timer := t.map (· - 1)

end Sys2Proof.Machine
end

