-- ==== Sys2Proof/Machine/Ops.lean ====
section
/-! DEFINITION. The named operations that every block leans on: the lanes, the causes, the counters, host memory, the DMA
arbiter, and the offering of records. -/

namespace Sys2Proof.Machine

/-! ## Lanes -/

/-- The unit of lane `l`. -/
def State.lane (s : State) (l : Lane) : LaneUnit := s.lanes[l.val]

/-- Lane `l` replaced. -/
def State.setLane (s : State) (l : Lane) (u : LaneUnit) : State := { s with lanes := s.lanes.set l.val u }

/-- Lane `l` changed by `f`. -/
def State.modLane (s : State) (l : Lane) (f : LaneUnit → LaneUnit) : State := s.setLane l (f (s.lane l))

/-- The lanes in ascending order. -/
def allLanes : List Lane := [0, 1, 2, 3, 4, 5, 6, 7]

/-- `f` carried out for each lane in ascending order. -/
def State.forLanes (s : State) (f : Lane → State → State) : State := allLanes.foldl (fun s l => f l s) s

/-- A port of the lane. -/
def LaneUnit.port (u : LaneUnit) : Port → ScanPort
  | .a => u.portA
  | .b => u.portB

/-- A port of the lane changed by `f`. -/
def LaneUnit.modPort (u : LaneUnit) (p : Port) (f : ScanPort → ScanPort) : LaneUnit :=
  match p with
  | .a => { u with portA := f u.portA }
  | .b => { u with portB := f u.portB }

/-- The effective settings of a port. -/
def LaneUnit.portSettings (u : LaneUnit) : Port → PortSettings
  | .a => u.settings.portA
  | .b => u.settings.portB

/-- Lane `l`'s port `p` changed by `f`. -/
def State.modPort (s : State) (l : Lane) (p : Port) (f : ScanPort → ScanPort) : State :=
  s.modLane l (fun u => u.modPort p f)

/-- Lane `l`'s keyboard scanner changed by `f`. -/
def State.modKb (s : State) (l : Lane) (f : Keyboard → Keyboard) : State :=
  s.modLane l (fun u => { u with kb := f u.kb })

/-- Lane `l`'s keylock reader changed by `f`. -/
def State.modKeylock (s : State) (l : Lane) (f : Keylock → Keylock) : State :=
  s.modLane l (fun u => { u with keylock := f u.keylock })

/-- Lane `l`'s drawer controller changed by `f`. -/
def State.modDrawer (s : State) (l : Lane) (f : Drawer → Drawer) : State :=
  s.modLane l (fun u => { u with drawer := f u.drawer })

/-- Lane `l`'s label acceptor changed by `f`. -/
def State.modAcceptor (s : State) (l : Lane) (f : Acceptor → Acceptor) : State :=
  s.modLane l (fun u => { u with acceptor := f u.acceptor })

/-- The lane's rewrite-pending flag is set (R162). -/
def State.laneRewrite (s : State) (l : Lane) : State := s.modLane l (fun u => { u with rewrite := true })

/-- The device rewrite-pending flag is set (R163). -/
def State.devRewrite (s : State) : State := { s with unit.devRewrite := true }

/-- The device is RUNNING or STOPPING: the states in which lanes change their own state (R3). -/
def State.inRun (s : State) : Bool := s.run.device == .running || s.run.device == .stopping

/-- The idle timer's full period: none when the idle time is 0, so that it does not run at all (R4). -/
def LaneSettings.idlePeriod (c : LaneSettings) : Timer := startUnlessZero (minTicks c.idleMin)

/-- The idle timer of an ACTIVE lane is restarted with its full period (R4). -/
def State.restartIdle (s : State) (l : Lane) : State :=
  s.modLane l (fun u => if u.laneState = .active then { u with idle := u.settings.idlePeriod } else u)

/-! ## Causes (R178) and the stall shown (R163) -/

/-- The bit position of a cause in CAUSE (R175). -/
def Cause.index : Cause → Nat
  | .journal => 0
  | .order => 1
  | .stall => 2
  | .starved => 3
  | .chain => 4
  | .stats => 5
  | .fault => 6

/-- The cause as a set of one. -/
def Cause.bit (c : Cause) : BitVec 7 := BitVec.ofNat 7 (2 ^ c.index)

/-- A raised cause is added to the pending set (R178). -/
def State.raise (s : State) (c : Cause) : State := { s with run.causes := s.run.causes ||| c.bit }

/-- A block records a stall: the stall shown is replaced whole, and the device status section is to be rewritten (R163). -/
def State.recordStall (s : State) (owner : StallOwner) (reason : StallReason) (offset : Word32) : State :=
  { s with unit.stall := { offset := offset, reason := reason, owner := owner }, unit.devRewrite := true }

/-- A block clears its stall: the stall shown changes only when the block owns it (R163). -/
def State.clearStall (s : State) (owner : StallOwner) : State :=
  if s.unit.stall.owner = owner then { s with unit.stall := .none, unit.devRewrite := true } else s

/-! ## Lane counters (R165, R166) -/

/-- A counter's place in the counter order. -/
def Counter.index : Counter → Fin 8
  | .labelsOk => 0
  | .labelsRefused => 1
  | .duplicates => 2
  | .keysDown => 3
  | .kicks => 4
  | .forced => 5
  | .jams => 6
  | .lost => 7

/-- One bit of eight set. -/
def setBit8 (b : BitVec 8) (i : Fin 8) : BitVec 8 := b ||| BitVec.ofNat 8 (2 ^ i.val)

/-- The counter rises by one and wraps (R165). -/
def LaneUnit.bump (u : LaneUnit) (c : Counter) : LaneUnit :=
  { u with counters := u.counters.set c.index.val (u.counters[c.index.val] + 1) }

/-- A count that reaches 49152 with its high-noted flag clear calls for STATS (R166). -/
def LaneUnit.highNotice (u : LaneUnit) (c : Counter) : Bool :=
  u.counters[c.index.val] + 1 == 49152#16 && !u.noted.getLsbD c.index.val

/-- An event counts a counter (R165, R166): an inhibited counter does not move; the others rise by one, and the high
notice sets the flag, raises STATS and asks for the lane's rewrite. -/
def State.count (s : State) (l : Lane) (c : Counter) : State :=
  let u := s.lane l
  if u.settings.inhibit.getLsbD c.index.val then s
  else if u.highNotice c then
    (s.setLane l { u.bump c with noted := setBit8 u.noted c.index, rewrite := true }).raise .stats
  else s.setLane l (u.bump c)

/-! ## Host memory: the part's writes (R167, R183; log 5) -/

/-- One byte stored at an address of a canonical list. -/
def memSet (a : Nat) (b : Byte) : List Host.Cell → List Host.Cell
  | [] => [(a, b)]
  | (a', b') :: rest =>
    if a < a' then (a, b) :: (a', b') :: rest
    else if a = a' then (a, b) :: rest
    else (a', b') :: memSet a b rest

/-- The byte that the part has stored at an address, if it has stored one. -/
def memGet (a : Nat) : List Host.Cell → Option Byte
  | [] => none
  | (a', b') :: rest => if a = a' then some b' else memGet a rest

/-- Bytes stored from an address upward, lowest first. -/
def memWrite (m : List Host.Cell) (a : Nat) : List Byte → List Host.Cell
  | [] => m
  | b :: bs => memWrite (memSet a b m) (a + 1) bs

/-- The bytes of an aborted write that reach memory, chosen by `lands` (R134, R153). -/
def memWritePart (m : List Host.Cell) (a : Nat) (lands : Nat → Bool) : Nat → List Byte → List Host.Cell
  | _, [] => m
  | i, b :: bs => memWritePart (if lands i then memSet (a + i) b m else m) a lands (i + 1) bs

/-- The canonical form of `hostMem`: addresses strictly rising. -/
def memWf : List Host.Cell → Bool
  | [] => true
  | [_] => true
  | (a, _) :: (a', b') :: rest => decide (a < a') && memWf ((a', b') :: rest)

/-- The byte of host memory that the part has stored at address `a`, or `none` where it has stored none. -/
def State.memByte (s : State) (a : Nat) : Option Byte := memGet a s.hostMem

/-! ## The DMA arbiter (R167, R168) -/

/-- The base of the lane area (R176). -/
def State.areaBase (s : State) : BitVec 64 := s.run.areaHigh ++ s.run.areaLow

/-- The host address of a granted request: base plus offset (R167; log 33). -/
def Grant.address (g : Grant) : Nat := (g.base + g.req.offset.setWidth 64).toNat

/-- The requester has a request granted. -/
def Arbiter.holds (d : Arbiter) (w : Requester) : Bool :=
  match d.granted with
  | some g => g.who == w
  | none => false

/-- The requester has a request waiting or in flight (R167: at most one). -/
def Arbiter.busy (d : Arbiter) (w : Requester) : Bool :=
  d.holds w ||
    match w with
    | .journal => d.waitJ.isSome
    | .walker => d.waitW.isSome
    | .settings => d.waitS.isSome

/-- A block asks for the engine; the request waits until it is granted. -/
def State.request (s : State) (w : Requester) (r : Request) : State :=
  match w with
  | .journal => { s with dma.waitJ := some r }
  | .walker => { s with dma.waitW := some r }
  | .settings => { s with dma.waitS := some r }

/-- A read request of `n` bytes. -/
def readRequest (p : Purpose) (offset : Word32) (n : Nat) : Request :=
  { purpose := p, offset := offset, length := n, data := [] }

/-- A write request of the bytes `data`. -/
def writeRequest (p : Purpose) (offset : Word32) (data : List Byte) : Request :=
  { purpose := p, offset := offset, length := data.length, data := data }

/-- The fixed rotation, starting with the requester that follows `last` (R167). -/
def Requester.rotation : Requester → List Requester
  | .journal => [.walker, .settings, .journal]
  | .walker => [.settings, .journal, .walker]
  | .settings => [.journal, .walker, .settings]

/-- The waiting request of a requester. -/
def Arbiter.waitingOf (d : Arbiter) : Requester → Option Request
  | .journal => d.waitJ
  | .walker => d.waitW
  | .settings => d.waitS

/-- The first requester of a rotation that has a request waiting. -/
def Arbiter.next (d : Arbiter) : List Requester → Option (Requester × Request)
  | [] => none
  | w :: ws => match d.waitingOf w with
    | some r => some (w, r)
    | none => d.next ws

/-- The request of `w` no longer waits. -/
def Arbiter.drop (d : Arbiter) : Requester → Arbiter
  | .journal => { d with waitJ := none }
  | .walker => { d with waitW := none }
  | .settings => { d with waitS := none }

/-- When the engine is free, the arbiter grants a waiting request in fixed rotation (R167), at the base held now (R176; that a
rewrite in STOPPED after an AREA write goes to the new base at once is log 40). In FAULTED it grants nothing (R168). -/
def State.grant (s : State) : State :=
  match s.dma.granted with
  | some _ => s
  | none =>
    if s.run.device = .faulted then s
    else match s.dma.next s.dma.last.rotation with
      | none => s
      | some (w, r) =>
        { s with dma := { s.dma.drop w with granted := some { who := w, req := r, base := s.areaBase }, last := w } }

/-- The granted request completes: a write's bytes are in host memory, and the engine is free (R167). -/
def State.complete (s : State) : State :=
  match s.dma.granted with
  | none => s
  | some g => { s with hostMem := memWrite s.hostMem g.address g.req.data, dma.granted := none }

/-- The granted request ends without completing: any of a write's bytes may be in host memory (R134, R153; log 6). -/
def State.abandon (s : State) : State :=
  match s.dma.granted with
  | none => s
  | some g =>
    { s with hostMem := memWritePart s.hostMem g.address (Config.abortLands s.freeUsed) 0 g.req.data, dma.granted := none,
             freeUsed := s.freeUsed + 1 }

/-- What the granted request is for. -/
def State.purpose (s : State) : Option Purpose := s.dma.granted.map (fun g => g.req.purpose)

/-! ## Records (chapter 6) -/

/-- The class of a DRAWER record is fixed by its cause; the two ORDER causes are told apart by the new condition (R98). -/
def DrawerCause.cls (cause : DrawerCause) (new : Condition) : Nat :=
  match cause with
  | .order => if new = .kicking then 2 else 3
  | .baseline | .kick | .late | .manual | .ajar | .close | .present | .release | .settings => 2
  | .forced | .timeout | .ajarFault | .absent | .lockout => 3

/-- The class of a record (R27 to R39, R71, R98, R109, R111, R172 and the tables of chapters 2 to 5). -/
def RecordBody.cls : RecordBody → Nat
  | .keyDown .. | .keyUp .. | .keyRepeat .. | .keyBlocked .. => 0
  | .label .. | .labelRefused .. | .labelDuplicate .. => 1
  | .keyImage .. | .keylock .. | .laneState .. | .gap .. | .mark .. | .runStart .. => 2
  | .drawer new _ cause _ _ _ => cause.cls new

/-- Which classes the device state produces (R100). The baseline set is staged by its own rule (R112). -/
def produced (d : DeviceState) (cls : Nat) : Bool :=
  match d with
  | .running => true
  | .stopping => decide (2 ≤ cls)
  | .resetIdle | .loading | .stopped | .faulted => false

/-- The lane has a pending loss in class 0 or 1 (R108). -/
def LaneUnit.lossHeld (u : LaneUnit) : Bool := decide (0 < u.losses[0]) || decide (0 < u.losses[1])

/-- The entry test (R102, R108): classes 0 and 1 enter below 88 when the lane has no such pending loss, classes 2 and 3
below 96. -/
def State.hasRoom (s : State) (l : Lane) (cls : Nat) : Bool :=
  if cls < 2 then decide (s.staging.queue.length < 88) && !(s.lane l).lossHeld
  else decide (s.staging.queue.length < 96)

/-- Flow hold is set when an entry brings the fill to the flow high mark or above (R105). -/
def State.testHigh (s : State) : State :=
  if s.unit.host.flowHigh ≤ s.staging.queue.length then { s with staging.hold := true } else s

/-- A lane record enters the queue: it takes the device clock and the lane's sequence, which advances (R103), and the
fill is tested against the flow high mark (R105). -/
def State.stage (s : State) (l : Lane) (b : RecordBody) : State :=
  ({ s.modLane l (fun u => { u with seq := u.seq + 1 }) with
      staging.queue := s.staging.queue ++ [(⟨b, some l, s.run.clock, (s.lane l).seq⟩ : StagedRecord)] }).testHigh

/-- A record of lane 0xFF enters the queue with the device record sequence (R103). -/
def State.stageDevice (s : State) (b : RecordBody) : State :=
  ({ s with
      staging.queue := s.staging.queue ++ [(⟨b, none, s.run.clock, s.staging.devSeq⟩ : StagedRecord)],
      staging.devSeq := s.staging.devSeq + 1 }).testHigh

/-- One loss more in a class, saturating at 65535 (R107). -/
def LaneUnit.addLoss (u : LaneUnit) (cls : Nat) : LaneUnit :=
  match cls with
  | 0 => { u with losses := u.losses.set 0 (min 65535 (u.losses[0] + 1)) }
  | 1 => { u with losses := u.losses.set 1 (min 65535 (u.losses[1] + 1)) }
  | 2 => { u with losses := u.losses.set 2 (min 65535 (u.losses[2] + 1)) }
  | _ => { u with losses := u.losses.set 3 (min 65535 (u.losses[3] + 1)) }

/-- A record that cannot enter is a loss: it adds to the pending loss count of its lane and class, and LOST is counted
(R107). -/
def State.lose (s : State) (l : Lane) (cls : Nat) : State := (s.modLane l (fun u => u.addLoss cls)).count l .lost

/-- A lane offers a record (R100, R102, R107). -/
def State.offer (s : State) (l : Lane) (b : RecordBody) : State :=
  if produced s.run.device b.cls then
    if s.hasRoom l b.cls then s.stage l b else s.lose l b.cls
  else s

end Sys2Proof.Machine
end

