-- ==== Sys2Proof/Machine/Flags.lean ====
section
/-! DEFINITION. The computed flags and register views: READY (R52), the interrupt request (R179), the top cause (R180), and
what a read of each register returns (R175). -/

namespace Sys2Proof.Machine

/-- The bit of the wake mask for a source (chapter 11.2). -/
def WakeSource.index : WakeSource → Nat
  | .key => 0
  | .scanA => 1
  | .scanB => 2
  | .keylock => 3
  | .drawer => 4

/-- The wake source of a port (R5). -/
def portSource : Port → WakeSource
  | .a => .scanA
  | .b => .scanB

/-- The source is in the lane's wake mask (R7). -/
def LaneUnit.wakesOn (u : LaneUnit) (w : WakeSource) : Bool := u.settings.wake.getLsbD w.index

/-- The READY output of a port: asserted exactly while the five conditions of R52 hold. -/
def State.ready (s : State) (l : Lane) (p : Port) : Bool :=
  let u := s.lane l
  s.run.device == .running
    && (u.laneState == .active || (u.laneState == .doze && u.wakesOn (portSource p)))
    && u.keylock.position != .lock
    && ((u.portSettings p).enable && (u.port p).orderEnable)
    && !s.staging.hold

/-- The interrupt request: asserted while the pending set and the enable mask have a cause in common (R179). -/
def State.irq (s : State) : Bool := s.run.causes &&& s.run.enable != 0

/-- A cause is pending. -/
def State.isPending (s : State) (c : Cause) : Bool := s.run.causes.getLsbD c.index

/-- The code of the highest pending cause in the order FAULT, CHAIN, STARVED, STALL, STATS, JOURNAL, ORDER (R175, R180). -/
def State.topCause (s : State) : Nat :=
  if s.isPending .fault then 7
  else if s.isPending .chain then 6
  else if s.isPending .starved then 5
  else if s.isPending .stall then 4
  else if s.isPending .stats then 3
  else if s.isPending .journal then 2
  else if s.isPending .order then 1
  else 0

/-- The 32 bits of CAUSE: the pending causes in bits 6 to 0 and the top cause in bits 10 to 8 (R175). -/
def State.causeWord (s : State) : Word32 := BitVec.ofNat 32 (s.run.causes.toNat + 256 * s.topCause)

/-- The code of a device state (R175). -/
def DeviceState.code : DeviceState → Nat
  | .resetIdle => 0
  | .loading => 1
  | .running => 2
  | .stopping => 3
  | .stopped => 4
  | .faulted => 5

/-- The code of a fault reason (R175). -/
def FaultReason.code : FaultReason → Nat
  | .none => 0
  | .anchorBad => 1
  | .linkAbort => 2

/-- The code of a reset kind (R175). -/
def ResetKind.code : ResetKind → Nat
  | .powerOn => 0
  | .link => 1
  | .soft => 2

/-- The 32 bits of CONTROL as a read returns them (R175). -/
def State.controlWord (s : State) : Word32 :=
  BitVec.ofNat 32 (s.run.device.code + 16 * s.run.fault.code + 256 * s.run.lastReset.code + 4096 * s.irq.toNat +
    65536 * s.run.runCount.toNat)

/-- What a read of the window's word `reg` (offset 4 × `reg`) returns (R175, R176, R177). A read of CAUSE has an effect
beside this value, CAUSE_READ (R180). -/
def State.readRegister (s : State) (reg : Fin 8) : Word32 :=
  match reg.val with
  | 0 => 0x08040001
  | 1 => s.controlWord
  | 2 => s.run.areaLow
  | 3 => s.run.areaHigh
  | 5 => s.causeWord
  | _ => 0

/-- A mask of the bits of the bytes an access includes (R175). -/
def bytesMask (bytes : BitVec 4) : Word32 :=
  BitVec.ofNat 32 ((if bytes.getLsbD 0 then 0xFF else 0) + (if bytes.getLsbD 1 then 0xFF00 else 0) +
    (if bytes.getLsbD 2 then 0xFF0000 else 0) + (if bytes.getLsbD 3 then 0xFF000000 else 0))

/-- A write of some bytes of a 32-bit register: the bytes not included keep their value (R175). -/
def mergeBytes (old new : Word32) (bytes : BitVec 4) : Word32 :=
  (old &&& ~~~(bytesMask bytes)) ||| (new &&& bytesMask bytes)

end Sys2Proof.Machine
end

