-- ==== Sys2Proof/Machine/Codes.lean ====
section
/-! DEFINITION. The numeric codes of chapter 11. -/

namespace Sys2Proof.Machine

/-- Lane states (chapter 11.2). -/
def laneStateCode : LaneState → Nat
  | .disabled => 0
  | .active => 1
  | .doze => 2
  | .off => 3

/-- Keylock positions (chapter 11.2). -/
def positionCode : Position → Nat
  | .lock => 0
  | .register => 1
  | .manager => 2
  | .service => 3

/-- The position of a contact reading with exactly one contact closed; none for the others (R13, R14). -/
def positionOf (contacts : BitVec 4) : Option Position :=
  if contacts = 1 then some .lock
  else if contacts = 2 then some .register
  else if contacts = 4 then some .manager
  else if contacts = 8 then some .service
  else none

/-- The contacts with the one of `pos` closed. -/
def contactsOf (pos : Position) : BitVec 4 := BitVec.ofNat 4 (2 ^ positionCode pos)

/-- Drawer conditions (chapter 11.2). -/
def Condition.code : Condition → Nat
  | .closed => 0
  | .kicking => 1
  | .isOpen => 2
  | .ajar => 3
  | .forced => 4
  | .jammed => 5
  | .absent => 6

/-- Walker states (chapter 11.2). -/
def WalkerState.code : WalkerState → Nat
  | .idle => 0
  | .fetching => 1
  | .working => 2
  | .waiting => 3
  | .parked => 4
  | .broken => 5
  | .halted => 6

/-- Stall reasons (chapter 11.2). -/
def StallReason.code : StallReason → Nat
  | .none => 0
  | .stalePage => 1
  | .staleSlip => 2
  | .badPageLink => 3
  | .badSlipLink => 4

/-- Close reasons (chapter 11.4). -/
def CloseReason.code : CloseReason → Nat
  | .full => 1
  | .linger => 2
  | .urgent => 3
  | .flush => 4
  | .stop => 5

/-- Outcome codes (chapter 11.3). -/
def SlipOutcome.code : SlipOutcome → Nat
  | .ok => 0
  | .badKind => 1
  | .badLane => 2
  | .badParam => 3
  | .laneOff => 4
  | .laneMode => 5
  | .keylock => 6
  | .drawerBusy => 7
  | .drawerLocked => 8
  | .drawerAbsent => 9
  | .drawerDisabled => 10
  | .portOff => 11

/-- Drawer causes (chapter 11.4). -/
def DrawerCause.code : DrawerCause → Nat
  | .baseline => 1
  | .order => 2
  | .kick => 3
  | .late => 4
  | .manual => 5
  | .ajar => 6
  | .close => 7
  | .present => 8
  | .release => 9
  | .settings => 10
  | .forced => 11
  | .timeout => 12
  | .ajarFault => 13
  | .absent => 14
  | .lockout => 15

/-- Port codes (chapter 11.4). -/
def portCode : Port → Nat
  | .a => 0
  | .b => 1

/-- Key image causes (chapter 11.4). -/
def ImageCause.code : ImageCause → Nat
  | .baseline => 1
  | .resync => 2
  | .read => 3
  | .reload => 4

/-- Lane state causes (chapter 11.4). -/
def StateCause.code : StateCause → Nat
  | .order => 1
  | .idle => 2
  | .wake _ => 3
  | .settings => 4

/-- The wake source byte of a LANE_STATE record: 0 none, then KEY, SCAN_A, SCAN_B, KEYLOCK, DRAWER (chapter 11.4). -/
def StateCause.sourceCode : StateCause → Nat
  | .wake w => w.index + 1
  | _ => 0

/-- Reasons for blocking (chapter 11.4). -/
def BlockReason.code : BlockReason → Nat
  | .ghost => 1
  | .rollover => 2

/-- Refusal reasons (chapter 11.4). -/
def RefuseReason.code : RefuseReason → Nat
  | .damaged _ => 1
  | .long _ => 2
  | .fragment .. => 3
  | .short _ => 4
  | .check .. => 5
  | .held _ => 6
  | .cut _ => 7

/-- Serial formats (R41). -/
def CharFormat.code : CharFormat → Nat
  | .f8n1 => 0
  | .f7e1 => 1
  | .f7o1 => 2

end Sys2Proof.Machine
end

