-- ==== Sys2Proof/Machine/Keyboard.lean ====
section
/-! DEFINITION. The keyboard scanner (chapter 2): the ghost and rollover tests, keys going down and up, the pass, the scan
mode, settings changes, and the KEY_IMAGE record. -/

namespace Sys2Proof.Machine

/-! ## The matrix -/

/-- A key's row is its drive line (R20). -/
def keyRow (k : Key) : Nat := k.val / 16

/-- A key's column is its sense line (R20). -/
def keyCol (k : Key) : Nat := k.val % 16

/-- The keys in ascending number. -/
def allKeys : List Key := List.finRange 128

/-- The keys of the lane's used matrix (R20). -/
def LaneSettings.usesKey (c : LaneSettings) (k : Key) : Bool := decide (keyRow k < c.drive) && decide (keyCol k < c.sense)

/-- The keys that count as down: those of the image and of the blocked list (R20, R24). -/
def Keyboard.downKeys (kb : Keyboard) : List Key := kb.image ++ kb.blocked.map Prod.fst

/-- A key's debounced state: down exactly when it stands in the image or the blocked list (R20, log 10). -/
def Keyboard.isDown (kb : Keyboard) (k : Key) : Bool := kb.downKeys.contains k

/-! ## The tests (R24, R25) -/

/-- `k` is the fourth corner of a rectangle whose other three corners are down: a key `a` in its row, a key `b` in its
column, and the key at `b`'s row and `a`'s column (R24). The key itself is none of the three. -/
def Keyboard.ghostSuspect (kb : Keyboard) (k : Key) : Bool :=
  kb.downKeys.any fun a =>
    keyRow a == keyRow k && keyCol a != keyCol k &&
      kb.downKeys.any fun b =>
        keyCol b == keyCol k && keyRow b != keyRow k &&
          kb.downKeys.any fun x => keyRow x == keyRow b && keyCol x == keyCol a

/-- The ghost test fails; with the isolated-matrix flag it always passes (R24). -/
def LaneUnit.failsGhost (u : LaneUnit) (k : Key) : Bool := !u.settings.isolated && u.kb.ghostSuspect k

/-- The rollover test passes: the image holds fewer keys than the limit (R25). -/
def LaneUnit.hasSlot (u : LaneUnit) : Bool := decide (u.kb.image.length < u.settings.rollover)

/-- Keys are reported: outside LOCK and outside a baseline capture (R27, R28, R31, R34). A pass between a capture's last
pass and its end event counts as capture (log 35). -/
def LaneUnit.reportsKeys (u : LaneUnit) : Bool := u.keylock.position != .lock && u.kb.capture.isNone

/-! ## Keys going down and up -/

/-- The typematic timer that the acceptance of `k` starts, if any (R27, R33). -/
def LaneUnit.typematicFor (u : LaneUnit) (k : Key) : Option Typematic :=
  if u.kb.capture.isNone && u.settings.repeatMap.getLsbD k.val then
    some { key := k, repeating := false, left := msTicks u.settings.typematicMs }
  else none

/-- A key is accepted (R27): it becomes the newest key of the image and its typematic sequence replaces any other. When
keys are reported, KEY_DOWN is offered, the key-since flag is set, KEYS_DOWN is counted, and the idle timer restarts. -/
def State.acceptKey (s : State) (l : Lane) (k : Key) : State :=
  let u := s.lane l
  let s := s.modKb l (fun kb => { kb with image := kb.image ++ [k], typematic := u.typematicFor k })
  if u.reportsKeys then
    (((s.offer l (.keyDown k (u.kb.image.length + 1))).modAcceptor l (fun a => { a with keySince := true })).count l
      .keysDown).restartIdle l
  else s

/-- A key enters the blocked list and its blocking episode begins, with KEY_BLOCKED when keys are reported (R28). -/
def State.blockKey (s : State) (l : Lane) (k : Key) (why : BlockReason) : State :=
  let u := s.lane l
  let s := s.modKb l (fun kb => { kb with blocked := kb.blocked ++ [(k, why)] })
  if u.reportsKeys then s.offer l (.keyBlocked k why u.kb.image.length) else s

/-- A key whose debounced state has gone down (R26). -/
def State.keyGoesDown (s : State) (l : Lane) (k : Key) : State :=
  let u := s.lane l
  if u.failsGhost k then s.blockKey l k .ghost
  else if u.hasSlot then s.acceptKey l k
  else s.blockKey l k .rollover

/-- A key whose debounced state has gone up: out of the image with KEY_UP when keys are reported (R31), or out of the
blocked list without a record (R32). A typematic sequence of the key stops (R33). -/
def State.keyGoesUp (s : State) (l : Lane) (k : Key) : State :=
  let u := s.lane l
  if u.kb.image.contains k then
    let s := s.modKb l (fun kb =>
      { kb with image := kb.image.filter (· != k), typematic := kb.typematic.filter (·.key != k) })
    if u.reportsKeys then s.offer l (.keyUp k (u.kb.image.filter (· != k)).length) else s
  else s.modKb l (fun kb => { kb with blocked := kb.blocked.filter (·.1 != k) })

/-- One blocked entry is examined again: a key that passes both tests leaves the list and is accepted (R30). -/
def State.reexamine (s : State) (l : Lane) (k : Key) : State :=
  let u := s.lane l
  if u.failsGhost k || !u.hasSlot then s
  else (s.modKb l (fun kb => { kb with blocked := kb.blocked.filter (·.1 != k) })).acceptKey l k

/-! ## Debounce and the pass (R22, R23) -/

/-- The raw reading of the pass differs from the key's debounced state. -/
def Keyboard.differs (kb : Keyboard) (raw : BitVec 128) (k : Key) : Bool := raw.getLsbD k.val != kb.isDown k

/-- The key's debounced state changes on this pass: the D-th consecutive pass that reads it in the new state (R23). -/
def LaneUnit.flips (u : LaneUnit) (raw : BitVec 128) (k : Key) : Bool :=
  u.settings.usesKey k && u.kb.differs raw k && decide (u.settings.debounce ≤ u.kb.counts[k.val] + 1)

/-- The key's change count after the pass; a key outside the used matrix keeps 0 (R20, R23). -/
def LaneUnit.countAfter (u : LaneUnit) (raw : BitVec 128) (k : Key) : Nat :=
  if u.settings.usesKey k && u.kb.differs raw k && !u.flips raw k then u.kb.counts[k.val] + 1 else 0

/-- The keys whose debounced state goes up on this pass, ascending. -/
def LaneUnit.goingUp (u : LaneUnit) (raw : BitVec 128) : List Key :=
  allKeys.filter fun k => u.flips raw k && u.kb.isDown k

/-- The keys whose debounced state goes down on this pass, ascending. -/
def LaneUnit.goingDown (u : LaneUnit) (raw : BitVec 128) : List Key :=
  allKeys.filter fun k => u.flips raw k && !u.kb.isDown k

/-- One pass as one event, in its four stages (R22): debounce, keys going up, re-examination of the blocked list, keys
going down. The next pass completes one pass period later, and a capture has one pass less to run (R10). -/
def State.runPass (s : State) (l : Lane) (raw : BitVec 128) : State :=
  let u := s.lane l
  let s := s.modKb l (fun kb => { kb with counts := Vector.ofFn (u.countAfter raw) })
  let s := (u.goingUp raw).foldl (fun s k => s.keyGoesUp l k) s
  let s := ((s.lane l).kb.blocked.map Prod.fst).foldl (fun s k => s.reexamine l k) s
  let s := (u.goingDown raw).foldl (fun s k => s.keyGoesDown l k) s
  s.modKb l (fun kb => { kb with passTimer := some u.settings.pass, capture := kb.capture.map (· - 1) })

/-! ## The scan mode (R21) -/

/-- The scan mode that the lane state calls for (R21). -/
def LaneUnit.scanMode (u : LaneUnit) : ScanMode :=
  if !u.configured then .idle
  else match u.laneState with
    | .active => .scanning
    | .doze => if u.wakesOn .key then .anyKey else .idle
    | .off | .disabled => .idle

/-- The scanner enters a mode: everything it tracks is empty, and the first pass comes one pass period later, the first
examination four pass periods later (R21, R35). -/
def Keyboard.entered (mode : ScanMode) (pass : Nat) : Keyboard :=
  { Keyboard.reset with
    mode := mode
    passTimer := match mode with
      | .idle => none
      | .scanning => some pass
      | .anyKey => some (4 * pass) }

/-- The scanner takes the mode its lane state calls for; a mode that stays is not entered again (R21). -/
def LaneUnit.followScan (u : LaneUnit) : LaneUnit :=
  if u.scanMode = u.kb.mode then u else { u with kb := Keyboard.entered u.scanMode u.settings.pass }

/-- A baseline capture of D passes begins, from an empty image (R10). -/
def LaneUnit.startCapture (u : LaneUnit) : LaneUnit :=
  { u with kb := { Keyboard.entered .scanning u.settings.pass with capture := some u.settings.debounce } }

/-- A baseline capture is abandoned without a record (R10). -/
def LaneUnit.dropCapture (u : LaneUnit) : LaneUnit := { u with kb.capture := none }

/-! ## Settings changes (R36 to R38) -/

/-- R36 and R37 on a scanner that keeps SCANNING: the matrix shrinks, a new D clears the change counts, the image is
trimmed to the rollover limit, and a sequence stops whose key left the image or lost its repeat flag. -/
def Keyboard.withSettings (kb : Keyboard) (old new : LaneSettings) : Keyboard :=
  let inside := kb.image.filter new.usesKey
  let kept := inside.take new.rollover
  { kb with
    counts := Vector.ofFn fun k => if new.usesKey k && old.debounce == new.debounce then kb.counts[k.val] else 0
    image := kept
    blocked := kb.blocked.filter (fun e => new.usesKey e.1) ++ (inside.drop new.rollover).map (fun k => (k, .rollover))
    typematic := kb.typematic.filter fun t => kept.contains t.key && new.repeatMap.getLsbD t.key.val }

/-- The reload removed or moved at least one image key (R36). -/
def Keyboard.disturbed (kb : Keyboard) (new : LaneSettings) : Bool :=
  kb.image != (kb.image.filter new.usesKey).take new.rollover

/-- A reload returns an ANY_KEY scanner to WAIT_CLEAR with a count of 0 (R35); the running examination period goes on
(log 15). -/
def Keyboard.waitClear (kb : Keyboard) : Keyboard :=
  { kb with anyStage := .waitClear, anyCount := 0, detected := false }

/-! ## KEY_IMAGE records (R39) -/

/-- The 128-key bitmap of a list of keys. -/
def keyBitmap (keys : List Key) : BitVec 128 :=
  keys.foldl (fun b k => b ||| BitVec.ofNat 128 (2 ^ k.val)) 0

/-- A KEY_IMAGE record of the image as it stands (R39). -/
def LaneUnit.imageRecord (u : LaneUnit) (cause : ImageCause) : RecordBody :=
  .keyImage cause (keyBitmap u.kb.image) u.kb.image.length u.kb.blocked.length

/-! ## Any-key sensing (R35) -/

/-- The any-key stage and count after an examination (R35), `d` being the debounce passes. At D active examinations in ARMED,
detection occurs and ANY_KEY_DETECTION is due (log 4). -/
def Keyboard.examined (kb : Keyboard) (d : Nat) (active : Bool) : Keyboard :=
  match kb.anyStage, active with
  | .waitClear, false =>
    if d ≤ kb.anyCount + 1 then { kb with anyStage := .armed, anyCount := 0 } else { kb with anyCount := kb.anyCount + 1 }
  | .waitClear, true => { kb with anyCount := 0 }
  | .armed, true =>
    if d ≤ kb.anyCount + 1 then { kb with anyCount := 0, detected := true } else { kb with anyCount := kb.anyCount + 1 }
  | .armed, false => { kb with anyCount := 0 }

/-- One examination (R35); the next comes four pass periods later. -/
def LaneUnit.examine (u : LaneUnit) (active : Bool) : LaneUnit :=
  { u with kb := { u.kb.examined u.settings.debounce active with passTimer := some (4 * u.settings.pass) } }

/-! ## Typematic repeat (R33, R34) -/

/-- The typematic timer expires: KEY_REPEAT outside LOCK, and the repeat interval starts (R33, R34). -/
def State.repeatKey (s : State) (l : Lane) (k : Key) : State :=
  let u := s.lane l
  let s := s.modKb l (fun kb => { kb with typematic := some { key := k, repeating := true, left := msTicks u.settings.repeatMs } })
  if u.keylock.position = .lock then s else s.offer l (.keyRepeat k u.kb.image.length)

end Sys2Proof.Machine
end

