-- ==== Sys2Proof/Machine/Scanner.lean ====
section
/-! DEFINITION. The scanner ports (chapter 3): receivers, frames, cuts and tones; and the label acceptor (chapter 4). -/

namespace Sys2Proof.Machine

/-! ## Receivers and frames -/

/-- The receiver is ON while the lane is configured, the port enabled, and the lane ACTIVE or DOZE (R42). -/
def LaneUnit.receiverOn (u : LaneUnit) (p : Port) : Bool :=
  u.configured && (u.portSettings p).enable && (u.laneState == .active || u.laneState == .doze)

/-- The receive frame is cleared. -/
def ScanPort.clearFrame (q : ScanPort) : ScanPort :=
  { q with mark := none, text := [], damaged := false, tooLong := false }

/-- The frame is over: the frame is cleared, the gap timer stopped, and the port WAITING (R47 to R49). -/
def ScanPort.toWaiting (q : ScanPort) : ScanPort := { q.clearFrame with frame := .waiting, gap := none }

/-- The receiver turns OFF (R42). -/
def ScanPort.turnOff (q : ScanPort) : ScanPort := { q.toWaiting with on := false }

/-- The receiver turns ON or is restarted: DISCARDING with an empty frame and the gap timer started (R42, R58). -/
def ScanPort.turnOn (q : ScanPort) (c : PortSettings) : ScanPort :=
  { q.clearFrame with on := true, frame := .discarding, gap := some (msTicks c.gapMs) }

/-- A pattern in progress stops at once with the output off (R55). -/
def ScanPort.stopTone (q : ScanPort) : ScanPort := { q with toneOn := false, tone := none }

/-- A pattern starts: the output is on, and the first step lasts T (R55). -/
def ScanPort.startTone (q : ScanPort) (c : PortSettings) (bad : Bool) : ScanPort :=
  { q with toneOn := true, tone := some { bad := bad, step := 0, period := msTicks c.toneMs, left := msTicks c.toneMs } }

/-- The end of a pattern's step: GOOD has one step and BAD five, and the output is on in the even ones (R55). -/
def ScanPort.toneStep (q : ScanPort) : ScanPort :=
  match q.tone with
  | none => q
  | some t =>
    if t.bad && t.step < 4 then
      { q with toneOn := (t.step + 1) % 2 == 0, tone := some { t with step := t.step + 1, left := t.period } }
    else q.stopTone

/-- A frame in ASSEMBLING is cut (R50): the frame is cleared and the rest of the label swallowed, the gap timer running on.
In RUNNING it is reported CUT and counted, in STOPPING counted, otherwise neither (R51). In any other frame state nothing is
cut. -/
def State.cutFrame (s : State) (l : Lane) (p : Port) : State :=
  let q := (s.lane l).port p
  if q.frame = .assembling then
    let s := s.modPort l p (fun q => { q.clearFrame with frame := .discarding })
    match s.run.device with
    | .running => (s.offer l (.labelRefused p (.cut q.text.length))).count l .labelsRefused
    | .stopping => s.count l .labelsRefused
    | _ => s
  else s

/-- The receiver follows a change of lane state (R42): a frame in progress is cut before it turns OFF. A lane that has left
ACTIVE and DOZE stops a pattern in progress (R55). -/
def State.followReceiver (s : State) (l : Lane) (p : Port) : State :=
  let u := s.lane l
  if u.receiverOn p = (u.port p).on then s
  else if u.receiverOn p then s.modPort l p (fun q => q.turnOn (u.portSettings p))
  else (s.cutFrame l p).modPort l p ScanPort.turnOff

/-- The pattern in progress stops unless the lane is ACTIVE or DOZE (R55). -/
def State.followTone (s : State) (l : Lane) (p : Port) : State :=
  match (s.lane l).laneState with
  | .active | .doze => s
  | .off | .disabled => s.modPort l p ScanPort.stopTone

/-- A port takes new settings, already in force in the lane (R58): the frame is cut, the receiver restarted or turned OFF,
and a pattern stops when the port is now disabled or the lane no longer ACTIVE or DOZE. -/
def State.reloadPort (s : State) (l : Lane) (p : Port) : State :=
  let s := s.cutFrame l p
  let u := s.lane l
  let s := s.modPort l p (fun q => if u.receiverOn p then q.turnOn (u.portSettings p) else q.turnOff)
  let s := if (u.portSettings p).enable then s else s.modPort l p ScanPort.stopTone
  s.followTone l p

/-! ## The label acceptor (chapter 4) -/

/-- A completed frame as the port hands it over (R47), but for the settings, which the acceptor reads from the port's
effective settings at the same moment, and the completion time, which is the device clock. -/
structure Frame where
  port : Port
  text : List Byte
  mark : Option Byte
  damaged : Bool
  tooLong : Bool
deriving DecidableEq, Repr

/-- The character is one of the digits '0' to '9' (R64). -/
def isDigit (b : Byte) : Bool := decide (0x30 ≤ b.toNat) && decide (b.toNat ≤ 0x39)

/-- The check digit test applies: check enable, digits only, and a length of 8, 12, 13 or 14 (R64). -/
def checkApplies (c : PortSettings) (text : List Byte) : Bool :=
  c.check && text.all isDigit && [8, 12, 13, 14].contains text.length

/-- The weighted sum of the payload digits, given from the right with the weight of the first of them (R65). -/
def weightedSum : List Byte → Nat → Nat
  | [], _ => 0
  | b :: bs, w => (b.toNat - 0x30) * w + weightedSum bs (4 - w)

/-- The expected check digit (10 − (S mod 10)) mod 10 of a text whose last digit is its check digit (R65). -/
def expectedDigit (text : List Byte) : Nat := (10 - weightedSum text.dropLast.reverse 3 % 10) % 10

/-- The check digit equals the expected digit (R65). -/
def checkPasses (text : List Byte) : Bool := (text.getLastD 0).toNat == 0x30 + expectedDigit text

/-- The time from the last accepted label to now, modulo 2^32 (R66). -/
def elapsedSince (now last : Word32) : Word32 := now - last

/-- The duplicate test at time `now` (R67): a frame of the same text within W ticks, with no key reported since. -/
def LaneUnit.duplicate (u : LaneUnit) (text : List Byte) (now : Word32) : Bool :=
  match u.acceptor.last with
  | none => false
  | some lab =>
    text == lab.text && !u.acceptor.keySince && decide ((elapsedSince now lab.time).toNat < msTicks u.settings.dupWindowMs)

/-- A refusal at the acceptor (R62, R63, R65): LABEL_REFUSED is offered and LABELS_REFUSED counted. -/
def State.refuseLabel (s : State) (l : Lane) (p : Port) (why : RefuseReason) : State :=
  (s.offer l (.labelRefused p why)).count l .labelsRefused

/-- A duplicate is suppressed (R68): the last label's time moves to now, DUPLICATES is counted, and LABEL_DUPLICATE is
offered when the frame's port reports duplicates. -/
def State.suppressLabel (s : State) (l : Lane) (p : Port) : State :=
  let u := s.lane l
  let elapsed := match u.acceptor.last with
    | some lab => elapsedSince s.run.clock lab.time
    | none => 0
  let s := (s.modAcceptor l (fun a => { a with last := a.last.map (fun lab => { lab with time := s.run.clock }) })).count l
    .duplicates
  if (u.portSettings p).reportDuplicates then s.offer l (.labelDuplicate p elapsed) else s

/-- A frame is accepted (R70): it becomes the last accepted label, the key-since flag is cleared, LABELS_OK is counted, the
LABEL record is offered (R71), GOOD starts on its port in confirm mode AUTO (R56), and an ACTIVE lane's idle timer restarts. -/
def State.acceptLabel (s : State) (l : Lane) (f : Frame) (passed : Bool) : State :=
  let c := (s.lane l).portSettings f.port
  let s := s.modAcceptor l (fun _ =>
    { last := some { text := f.text, port := f.port, time := s.run.clock }, keySince := false })
  let s := (s.count l .labelsOk).offer l (.label f.port f.mark passed f.text)
  let s := if c.hostConfirm then s else s.modPort l f.port (fun q => q.startTone c false)
  s.restartIdle l

/-- The judgement of a completed frame in its four stages (R61): the lane gate (R62), the frame checks (R63), the check
digit test (R64, R65), the duplicate test (R67), and acceptance. -/
def State.judge (s : State) (l : Lane) (f : Frame) : State :=
  let u := s.lane l
  let c := u.portSettings f.port
  let n := f.text.length
  if u.keylock.position = .lock then s.refuseLabel l f.port (.held n)
  else if f.damaged then s.refuseLabel l f.port (.damaged n)
  else if f.tooLong then s.refuseLabel l f.port (.long n)
  else if n < c.minLength then s.refuseLabel l f.port (.short n)
  else if checkApplies c f.text && !checkPasses f.text then s.refuseLabel l f.port (.check (expectedDigit f.text) f.text)
  else if u.duplicate f.text s.run.clock then s.suppressLabel l f.port
  else s.acceptLabel l f (checkApplies c f.text)

/-! ## Characters (R43 to R49) -/

/-- The seven low bits and the parity bit hold an even number of ones (R43). -/
def evenOnes (bits : Byte) : Bool :=
  ((List.range 8).filter (fun i => bits.getLsbD i)).length % 2 == 0

/-- The value of a character and whether it is in error (R43): a low stop bit, or parity that disagrees. In the 7-bit
formats the eighth sampled bit is the parity bit. A line held low is one character in error, whose value 0 is log 12. -/
def receiveChar (format : CharFormat) : RxChar → Byte × Bool
  | .heldLow => (0, true)
  | .sampled bits stop =>
    match format with
    | .f8n1 => (bits, !stop)
    | .f7e1 => (bits &&& 0x7F, !stop || !evenOnes bits)
    | .f7o1 => (bits &&& 0x7F, !stop || evenOnes bits)

/-- A good character is a terminator when it equals the terminator byte, of which the 7-bit formats use the low 7 bits
(R43). -/
def PortSettings.isTerminator (c : PortSettings) (value : Byte) (err : Bool) : Bool :=
  !err && value == (if c.format = .f8n1 then c.terminator else c.terminator &&& 0x7F)

/-- A character is placed in the frame: mark, text or overflow; an error sets the damaged flag; the gap timer restarts
(R46). -/
def ScanPort.place (q : ScanPort) (c : PortSettings) (value : Byte) (err : Bool) : ScanPort :=
  let q := { q with gap := some (msTicks c.gapMs), damaged := q.damaged || err }
  if c.markMode && q.mark.isNone then { q with mark := some value }
  else if q.text.length < 48 then { q with text := q.text ++ [value] }
  else { q with tooLong := true }

/-- The frame a port holds, as it hands it over (R47). -/
def ScanPort.toFrame (q : ScanPort) (p : Port) : Frame :=
  { port := p, text := q.text, mark := q.mark, damaged := q.damaged, tooLong := q.tooLong }

/-- A frame begun while READY is low is discarded whole, and reported HELD on an ACTIVE lane of a RUNNING device (R44,
R45). -/
def State.holdFrame (s : State) (l : Lane) (p : Port) : State :=
  let u := s.lane l
  let s := s.modPort l p (fun q => { q.clearFrame with frame := .discarding, gap := some (msTicks (u.portSettings p).gapMs) })
  if s.run.device = .running ∧ u.laneState = .active then
    (s.offer l (.labelRefused p (.held 0))).count l .labelsRefused
  else s

/-- A terminator ends the frame in ASSEMBLING: an empty text is dropped, and any other frame is handed to the acceptor
(R47). -/
def State.endFrame (s : State) (l : Lane) (p : Port) : State :=
  let q := (s.lane l).port p
  let s := s.modPort l p ScanPort.toWaiting
  if q.text = [] then s else s.judge l (q.toFrame p)

/-- The gap timer expires in ASSEMBLING: the frame is refused FRAGMENT (R48). -/
def State.fragment (s : State) (l : Lane) (p : Port) : State :=
  let q := (s.lane l).port p
  ((s.offer l (.labelRefused p (.fragment q.text.length q.damaged q.tooLong))).count l .labelsRefused).modPort l p
    ScanPort.toWaiting

end Sys2Proof.Machine
end

