-- ==== Sys2Proof/Machine/LaneControl.lean ====
section
/-! DEFINITION. Lane state control and the keylock reader (chapter 1), and what a character does at a port, which may wake
its lane (R43 to R49). -/

namespace Sys2Proof.Machine

/-! ## Lane state -/

/-- A change of lane state (R2): the idle timer follows (R4), a LANE_STATE record is offered, the ports follow with their CUT
records (R42, R50, R51, R55), and the keyboard scanner follows (R5, R9, R21), with a baseline capture when one is called for
(R10). -/
def State.changeLane (s : State) (l : Lane) (new : LaneState) (cause : StateCause) (capture : Bool) : State :=
  let s := s.modLane l (fun u =>
    { u with laneState := new, rewrite := true, idle := if new = .active then u.settings.idlePeriod else none })
  let s := s.offer l (.laneState new cause)
  let s := ((s.followReceiver l .a).followTone l .a).followReceiver l .b |>.followTone l .b
  s.modLane l (fun u => if capture then u.startCapture else u.followScan)

/-- A wake source occurs (R7): a dozing lane with the source in its mask becomes ACTIVE, in RUNNING and STOPPING (R3). -/
def State.wake (s : State) (l : Lane) (w : WakeSource) : State :=
  let u := s.lane l
  if u.laneState = .doze ∧ u.wakesOn w = true ∧ s.inRun = true then s.changeLane l .active (.wake w) false else s

/-- The lane state that an order's target names (R8). -/
def targetState : Target → LaneState
  | .active => .active
  | .doze => .doze
  | .off => .off

/-! ## The keylock reader -/

/-- A valid reading names a position (R13). -/
def Keylock.valid (k : Keylock) (pos : Position) (settleMs : Nat) : Keylock :=
  if pos = k.position then { k with indet := none, candidate := none, settle := none }
  else { k with indet := none, candidate := some pos, settle := some (msTicks settleMs) }

/-- An invalid reading (R14). -/
def Keylock.invalid (k : Keylock) : Keylock :=
  { k with candidate := none, settle := none, indet := some (k.indet.getD 1024) }

/-- A running reader takes the contact reading as a new reading (R13, R14). -/
def LaneUnit.takeReading (u : LaneUnit) : LaneUnit :=
  match positionOf u.keylock.contacts with
  | some pos => { u with keylock := u.keylock.valid pos u.settings.settleMs }
  | none => { u with keylock := u.keylock.invalid }

/-- The contact inputs change; a stopped reader takes no reading (R12). -/
def LaneUnit.setContacts (u : LaneUnit) (contacts : BitVec 4) : LaneUnit :=
  if u.keylock.contacts = contacts then u
  else
    let u := { u with keylock.contacts := contacts }
    if u.keylock.running then u.takeReading else u

/-- The reader runs while the lane is configured and either enable is 1 (R12), in FAULTED too (R181; log 36). -/
def LaneUnit.readerRuns (u : LaneUnit) : Bool := u.configured && (u.settings.enable || u.settings.drawer.enable)

/-- The reader starts or stops as the settings call for (R12): on starting it takes the current reading as a new one, on
stopping it clears the candidate and both timers and keeps its position. -/
def LaneUnit.followReader (u : LaneUnit) : LaneUnit :=
  if u.readerRuns = u.keylock.running then u
  else if u.readerRuns then { u with keylock.running := true }.takeReading
  else { u with keylock := { u.keylock with running := false, candidate := none, settle := none, indet := none } }

/-- A position is adopted (R13, R14): it is handed on, a dozing lane may wake on KEYLOCK, the KEYLOCK record is offered, and
leaving LOCK brings KEY_IMAGE(RESYNC) when the lane is ACTIVE or dozing (R17). -/
def State.adopt (s : State) (l : Lane) (pos : Position) (indeterminate : Bool) : State :=
  let old := (s.lane l).keylock.position
  let s := s.modLane l (fun u =>
    { u with keylock := { u.keylock with position := pos, candidate := none, settle := none }, rewrite := true })
  let s := (s.wake l .keylock).offer l (.keylock pos old indeterminate)
  let u := s.lane l
  if old = .lock ∧ pos ≠ .lock ∧ (u.laneState = .active ∨ u.laneState = .doze) then s.offer l (u.imageRecord .resync) else s

/-! ## A character at a port -/

/-- The first character of a frame in WAITING (R44): a terminator begins no frame; with READY asserted the frame is
assembled, and at a dozing lane the port's wake source occurs; with READY low it is held. -/
def State.beginFrame (s : State) (l : Lane) (p : Port) (value : Byte) (err : Bool) : State :=
  let c := (s.lane l).portSettings p
  if c.isTerminator value err then s.modPort l p (fun q => { q with gap := none })
  else if s.ready l p then
    (s.modPort l p (fun q => { q.clearFrame with frame := .assembling }.place c value err)).wake l (portSource p)
  else s.holdFrame l p

/-- A character received at a port, by its frame state (R44, R46, R47, R49). -/
def State.takeChar (s : State) (l : Lane) (p : Port) (value : Byte) (err : Bool) : State :=
  let c := (s.lane l).portSettings p
  match ((s.lane l).port p).frame with
  | .waiting => s.beginFrame l p value err
  | .assembling =>
    if c.isTerminator value err then s.endFrame l p else s.modPort l p (fun q => q.place c value err)
  | .discarding =>
    if c.isTerminator value err then s.modPort l p ScanPort.toWaiting
    else s.modPort l p (fun q => { q with gap := some (msTicks c.gapMs) })

/-- The receiver takes a character (R42, R43): it is ON, and the line is not held low. -/
def ScanPort.hears (q : ScanPort) : Bool := q.on && !q.lineLow

/-- A character event at a receiver that takes it (R43): after a line held low no start bit is taken until the line has
returned high. -/
def State.receive (s : State) (l : Lane) (p : Port) (char : RxChar) : State :=
  let (value, err) := receiveChar ((s.lane l).portSettings p).format char
  let s := if char = .heldLow then s.modPort l p (fun q => { q with lineLow := true }) else s
  s.takeChar l p value err

end Sys2Proof.Machine
end

