-- ==== Sys2Proof/Machine/Operands.lean ====
section
/-! DEFINITION. The operands that the host writes into the lane area: the host part, the lane settings records with their
defaults and clamping (R41, R60, R76, R116, R155 to R158, chapter 11.2), and the slips (R138, R144, chapter 11.3). -/

namespace Sys2Proof.Machine

/-- The nearest value of a range. -/
def clampTo (lo hi n : Nat) : Nat := if n < lo then lo else if hi < n then hi else n

/-- A loaded field: its effective value, and whether a written value was replaced by clamping. -/
structure Loaded where
  value : Nat
  hit : Bool
deriving DecidableEq, Repr

/-- A field without a default: taken as written and clamped (R156). -/
def load (clamp : Nat → Nat) (written : Nat) : Loaded :=
  { value := clamp written, hit := clamp written != written }

/-- A field with a default: when the defaults selector is not 0 it takes its default, which does not count as clamping
(R156). -/
def loadDefault (selector : Byte) (dflt : Nat) (clamp : Nat → Nat) (written : Nat) : Loaded :=
  if selector = 0 then load clamp written else { value := dflt, hit := false }

/-- A flag field: any nonzero value is 1 (R41, R76, R158). -/
def Loaded.flag (f : Loaded) : Bool := f.value != 0

/-- Format codes; above 2 becomes 0 (R41). -/
def formatOf (n : Nat) : CharFormat :=
  match n with
  | 1 => .f7e1
  | 2 => .f7o1
  | _ => .f8n1

/-- One port block of a lane settings record, at `at`, with whether a field was clamped (R41, R156, chapter 11.2). -/
def loadPort (rec : List Byte) (selector : Byte) (at_ : Nat) : PortSettings × Bool :=
  let enable := load (clampTo 0 1) (field1 rec at_)
  let rate := load (clampTo 0 7) (field1 rec (at_ + 1))
  let format := load (fun n => if 2 < n then 0 else n) (field1 rec (at_ + 2))
  let terminator := loadDefault selector 0x0D id (field1 rec (at_ + 3))
  let mode := load (clampTo 0 1) (field1 rec (at_ + 4))
  let minLength := loadDefault selector 4 (clampTo 1 48) (field1 rec (at_ + 5))
  let gap := loadDefault selector 30 (clampTo 2 255) (field1 rec (at_ + 6))
  let check := load (clampTo 0 1) (field1 rec (at_ + 7))
  let confirm := load (clampTo 0 1) (field1 rec (at_ + 8))
  let report := load (clampTo 0 1) (field1 rec (at_ + 9))
  let tone := loadDefault selector 80 (clampTo 20 500) (field2 rec (at_ + 10))
  ({ enable := enable.flag, rate := rate.value, format := formatOf format.value,
     terminator := BitVec.ofNat 8 terminator.value, markMode := mode.flag, minLength := minLength.value,
     gapMs := gap.value, check := check.flag, hostConfirm := confirm.flag, reportDuplicates := report.flag,
     toneMs := tone.value },
   [enable, rate, format, terminator, mode, minLength, gap, check, confirm, report, tone].any Loaded.hit)

/-- The drawer fields of a lane settings record, with whether one was clamped (R76, R156, chapter 11.2). The ajar fault is
raised to the effective ajar alert after its own clamping. -/
def loadDrawer (rec : List Byte) (selector : Byte) : DrawerSettings × Bool :=
  let enable := load (clampTo 0 1) (field1 rec 0x01)
  let kick := loadDefault selector 60 (clampTo 20 250) (field2 rec 0x48)
  let confirm := loadDefault selector 800 (clampTo 100 3000) (field2 rec 0x4A)
  let alert := loadDefault selector 60 (clampTo 5 600) (field2 rec 0x4C)
  let fault := loadDefault selector 180 (fun n => max alert.value (clampTo 5 3600 n)) (field2 rec 0x4E)
  let settle := loadDefault selector 16 (clampTo 4 64) (field1 rec 0x50)
  let presence := loadDefault selector 5 (clampTo 0 60) (field1 rec 0x51)
  let count := loadDefault selector 3 (fun n => if n = 0 then 0 else clampTo 2 8 n) (field1 rec 0x52)
  let window := loadDefault selector 15 (clampTo 1 120) (field1 rec 0x53)
  ({ enable := enable.flag, kickMs := kick.value, confirmMs := confirm.value, alertS := alert.value,
     faultS := fault.value, settleMs := settle.value, presenceS := presence.value, lockoutCount := count.value,
     lockoutMin := window.value },
   [enable, kick, confirm, alert, fault, settle, presence, count, window].any Loaded.hit)

/-- The bits of a set field, of which the flags that name no member are ignored (R157, R158) and do not count as clamped (log 37),
or of a map. -/
def maskField (w : Nat) (data : List Byte) (at_ n : Nat) : BitVec w :=
  BitVec.ofNat w (((data.drop at_).take n).foldr (fun b acc => b.toNat + 256 * acc) 0)

/-- A lane settings record as loaded (R41, R60, R76, R156, R158, R161): the effective settings, and whether a field was
clamped. `held` is the drawer store when the policy lock holds it; the record's drawer fields are then not examined. -/
def loadLane (rec : List Byte) (held : Option DrawerSettings) : LaneSettings × Bool :=
  let sel := byteAt rec 0x02
  let enable := load (clampTo 0 1) (field1 rec 0x00)
  let idle := load (clampTo 0 255) (field2 rec 0x04)
  let drive := load (clampTo 1 8) (field1 rec 0x06)
  let sense := load (clampTo 1 16) (field1 rec 0x07)
  let pass := loadDefault sel 4 (clampTo 1 16) (field1 rec 0x08)
  let debounce := loadDefault sel 3 (clampTo 1 8) (field1 rec 0x09)
  let rollover := loadDefault sel 10 (clampTo 2 16) (field1 rec 0x0A)
  let isolated := load (clampTo 0 1) (field1 rec 0x0B)
  let settle := loadDefault sel 200 (clampTo 50 1000) (field2 rec 0x0C)
  let typematic := loadDefault sel 500 (clampTo 100 2000) (field2 rec 0x0E)
  let interval := loadDefault sel 100 (clampTo 30 500) (field2 rec 0x10)
  let window := load (clampTo 0 2000) (field2 rec 0x12)
  let a := loadPort rec sel 0x28
  let b := loadPort rec sel 0x38
  let d := match held with
    | some d => (d, false)
    | none => loadDrawer rec sel
  ({ enable := enable.flag, selector := sel, wake := maskField 5 rec 0x03 1, idleMin := idle.value, drive := drive.value,
     sense := sense.value, pass := pass.value, debounce := debounce.value, rollover := rollover.value,
     isolated := isolated.flag, settleMs := settle.value, typematicMs := typematic.value, repeatMs := interval.value,
     dupWindowMs := window.value, inhibit := maskField 8 rec 0x14 1, repeatMap := maskField 128 rec 0x18 16,
     portA := a.1, portB := b.1, drawer := d.1 },
   [enable, idle, drive, sense, pass, debounce, rollover, isolated, settle, typematic, interval, window].any Loaded.hit
     || a.2 || b.2 || d.2)

/-- The format and the area length of the host part are legal (R155, R157). -/
def hostPartGood (data : List Byte) : Bool := field1 data 0x00 == 1 && decide (4096 ≤ (field4 data 0x0C).toNat)

/-- The host part as loaded (R116, R156, R157): flow low is clamped after flow high, against its effective value. -/
def loadHost (data : List Byte) : HostSettings :=
  let sel := byteAt data 0x01
  let lanes := load (clampTo 1 8) (field1 data 0x02)
  let page := load (clampTo 0 3) (field1 data 0x03)
  let notice := load (clampTo 1 16) (field1 data 0x04)
  let urgent := loadDefault sel 3 (clampTo 1 4) (field1 data 0x05)
  let high := loadDefault sel 64 (clampTo 16 80) (field1 data 0x06)
  let low := loadDefault sel 32 (clampTo 0 (high.value - 8)) (field1 data 0x07)
  let linger := loadDefault sel 20 (clampTo 0 1000) (field2 data 0x08)
  let recheck := loadDefault sel 10 id (field1 data 0x0A)
  { lanesInUse := lanes.value, pageCode := page.value, notice := notice.value, urgent := urgent.value,
    flowHigh := high.value, flowLow := low.value, lingerMs := linger.value, recheckMs := recheck.value,
    enable := maskField 7 data 0x0B 1, areaLength := (field4 data 0x0C).toNat, selector := sel,
    clamped := [lanes, page, notice, urgent, high, low, linger, recheck].any Loaded.hit }

/-! ## Slips -/

/-- The copy of a slip that the walker takes from the 64 bytes read (R138, chapter 11.3). -/
def slipOf (offset : Word32) (data : List Byte) : Slip :=
  { offset := offset, kind := byteAt data 0x01, lane := byteAt data 0x02, flags := byteAt data 0x03,
    tag := field4 data 0x04, params := padTo 16 (data.drop 0x0C) }

/-- The slip's notify flag (chapter 11.3). -/
def Slip.notifies (sl : Slip) : Bool := sl.flags.getLsbD 0

/-- A refusal with its detail and a result of zeros (R143, R185). -/
def refusal (o : SlipOutcome) (detail : Nat) : Answer :=
  { outcome := o, detail := BitVec.ofNat 16 detail, result := [] }

/-- An acceptance with its detail and result (R143). -/
def accepted (detail : Nat) (result : List Byte) : Answer :=
  { outcome := .ok, detail := BitVec.ofNat 16 detail, result := result }

/-- Ports in parameters: 0 A, 1 B (chapter 11.3). -/
def portOf (n : Nat) : Port := if n = 0 then .a else .b

/-- The slip-level checks (R144): an order that its owner can take, or the refusal. Kinds 1 to 9 name a lane. -/
def checkSlip (lanesInUse : Nat) (sl : Slip) : Except Answer Order :=
  let kind := sl.kind.toNat
  let lane := sl.lane.toNat
  let l : Lane := Fin.ofNat 8 lane
  let p0 := field1 sl.params 0
  let p1 := field1 sl.params 1
  if kind = 0 ∨ 12 < kind then .error (refusal .badKind kind)
  else if kind < 10 ∧ lanesInUse ≤ lane then .error (refusal .badLane lane)
  else match kind with
    | 1 => .ok (.drawerKick l)
    | 2 => .ok (.drawerLockout l)
    | 3 => .ok (.drawerRelease l)
    | 4 =>
      if 1 < p0 then .error (refusal .badParam 0)
      else if 1 < p1 then .error (refusal .badParam 1)
      else .ok (.scannerSet l (portOf p0) (p1 == 1))
    | 5 =>
      if 1 < p0 then .error (refusal .badParam 0)
      else if 1 < p1 then .error (refusal .badParam 1)
      else .ok (.scanConfirm l (portOf p0) (p1 == 1))
    | 6 => .ok (.keyImageRead l)
    | 7 => .ok (.laneReload l)
    | 8 => match p0 with
      | 1 => .ok (.laneState l .active)
      | 2 => .ok (.laneState l .doze)
      | 3 => .ok (.laneState l .off)
      | _ => .error (refusal .badParam 0)
    | 9 => if 1 < p0 then .error (refusal .badParam 0) else .ok (.countersRead l (p0 == 1))
    | 10 => .ok .flush
    | 11 => .ok .policyLock
    | _ => .ok (.journalMark sl.tag)

end Sys2Proof.Machine
end

