-- ==== Sys2Proof/Machine/Drawer.lean ====
section
/-! DEFINITION. The drawer controller (chapter 5): the condition machine, the history and the latch, the ajar timing, the
presence test, and starting, stopping and settings changes. -/

namespace Sys2Proof.Machine

/-! ## Changes of condition (R79, R98) -/

/-- A DRAWER record of the drawer as it stands after the event (R98; log 13). -/
def Drawer.record (d : Drawer) (old : Condition) (cause : DrawerCause) (value : Word32) : RecordBody :=
  .drawer d.cond old cause d.latch d.ajarFault value

/-- An event changes the drawer by `f` (R79): when the condition changes, lane state control is told and a dozing lane may
wake on DRAWER; then the DRAWER record is offered; the lane status record is to be rewritten (R162). -/
def State.drawerEvent (s : State) (l : Lane) (f : Drawer → Drawer) (cause : DrawerCause) (value : Word32) : State :=
  let old := (s.lane l).drawer.cond
  let s := (s.modDrawer l f).laneRewrite l
  let s := if (s.lane l).drawer.cond = old then s else s.wake l .drawer
  s.offer l ((s.lane l).drawer.record old cause value)

/-! ## Opening and closing -/

/-- The ajar timing starts at an opening (R85): the stage is ALERT_PENDING and both marks run from the opened-at time, with
the settings in force at the opening. -/
def Drawer.openAt (d : Drawer) (c : DrawerSettings) (now : Word32) (cond : Condition) : Drawer :=
  { d with cond := cond, openedAt := now, stage := .alertPending, alert := some (secTicks c.alertS),
           faultMark := some (secTicks c.faultS), alertTicks := secTicks c.alertS, faultTicks := secTicks c.faultS }

/-- The ajar timing stops with the stage NONE (R85, R86, R88). -/
def Drawer.stopAjar (d : Drawer) : Drawer := { d with stage := .none, alert := none, faultMark := none }

/-- The kick output is off and the pulse and confirm timers stopped (R80, R81, R88, R92). -/
def Drawer.endKick (d : Drawer) : Drawer := { d with kickOut := false, pulse := none, confirm := none }

/-- An accepted kick (R80). -/
def Drawer.kick (d : Drawer) (c : DrawerSettings) (now : Word32) : Drawer :=
  { d with cond := .kicking, kickOut := true, pulse := some (msTicks c.kickMs), confirm := some (msTicks c.confirmMs),
           confirmTicks := msTicks c.confirmMs, kickStart := now }

/-- The closing of an OPEN, AJAR or FORCED drawer (R86). -/
def Drawer.close (d : Drawer) : Drawer := { d.stopAjar with cond := .closed, ajarFault := false }

/-! ## The forced-open history (R84) -/

/-- Steps 1 and 2 of R84: entries at least as old as the window go, an eighth entry makes room, and now is appended. -/
def updateHistory (history : List Word32) (window : Nat) (now : Word32) : List Word32 :=
  let kept := history.filter (fun t => decide ((now - t).toNat < window))
  (if kept.length < 8 then kept else kept.drop (kept.length - 7)) ++ [now]

/-- A forced opening (R83, R84): the history is updated, and N entries latch the lockout and empty it. -/
def Drawer.forceOpen (d : Drawer) (c : DrawerSettings) (now : Word32) : Drawer :=
  let h := updateHistory d.history (minTicks c.lockoutMin) now
  if c.lockoutCount ≠ 0 ∧ d.latch = false ∧ c.lockoutCount ≤ h.length then
    { d.openAt c now .forced with history := [], latch := true }
  else { d.openAt c now .forced with history := h }

/-- An opening without a kick at a CLOSED drawer outside SERVICE (R83, R84): the FORCED record carries the history length
after step 2, FORCED is counted, and a LOCKOUT record with the entries counted follows when the latch is set. -/
def State.forcedOpening (s : State) (l : Lane) : State :=
  let u := s.lane l
  let n := (updateHistory u.drawer.history (minTicks u.settings.drawer.lockoutMin) s.run.clock).length
  let s' := (s.drawerEvent l (fun d => d.forceOpen u.settings.drawer s.run.clock) .forced (word n)).count l .forced
  if u.drawer.latch = false ∧ (s'.lane l).drawer.latch = true then
    s'.offer l ((s'.lane l).drawer.record .forced .lockout (word n))
  else s'

/-! ## Sensor events (R78, R81 to R83, R86) -/

/-- The sensor event "sensor open", by condition; in the conditions whose settled state is already open it does not arise,
and in ABSENT it does not change the condition (R88). -/
def State.sensorOpen (s : State) (l : Lane) : State :=
  let u := s.lane l
  let d := u.drawer
  let now := s.run.clock
  match d.cond with
  | .kicking =>
    s.drawerEvent l (fun d => d.endKick.openAt u.settings.drawer now .isOpen) .kick (now - d.kickStart)
  | .jammed => s.drawerEvent l (fun d => d.openAt u.settings.drawer now .isOpen) .late (now - d.kickStart)
  | .closed =>
    if u.keylock.position = .service then
      s.drawerEvent l (fun d => d.openAt u.settings.drawer now .isOpen) .manual 0
    else s.forcedOpening l
  | .isOpen | .ajar | .forced | .absent => s

/-- The sensor event "sensor closed" (R86). -/
def State.sensorClosed (s : State) (l : Lane) : State :=
  let d := (s.lane l).drawer
  match d.cond with
  | .isOpen | .ajar | .forced => s.drawerEvent l Drawer.close .close (s.run.clock - d.openedAt)
  | .closed | .kicking | .jammed | .absent => s

/-- The raw reading against the settled state (R78): the settle timer starts, or stops when they agree again. -/
def Drawer.compareRaw (d : Drawer) (c : DrawerSettings) : Drawer :=
  if d.rawOpen = d.settledOpen then { d with settle := none } else { d with settle := some (msTicks c.settleMs) }

/-- The raw reading changes (R78); a stopped controller and a measurement in progress take no event. -/
def Drawer.rawChange (d : Drawer) (c : DrawerSettings) (isOpen : Bool) : Drawer :=
  if d.rawOpen = isOpen then d
  else
    let d := { d with rawOpen := isOpen }
    if d.running && d.measuring.isNone then d.compareRaw c else d

/-! ## The presence test (R87 to R89) -/

/-- The presence timer expires: a measurement of 2 ticks starts with the bias reversed, and the settle timer is stopped
(R78, R87). -/
def Drawer.startMeasure (d : Drawer) : Drawer := { d with presence := none, measuring := some 2, settle := none }

/-- The measurement ends: the bias is restored, the presence timer restarts, and the raw reading is compared (R78, R87). -/
def Drawer.endMeasure (d : Drawer) (c : DrawerSettings) : Drawer :=
  { d with measuring := none, presence := startUnlessZero (secTicks c.presenceS) }.compareRaw c

/-- A failing test (R88): the count rises, up to 2. -/
def Drawer.failTest (d : Drawer) : Drawer := { d with failCount := min 2 (d.failCount + 1) }

/-- The drawer becomes ABSENT (R88). -/
def Drawer.toAbsent (d : Drawer) : Drawer := { d.endKick.stopAjar with cond := .absent }

/-- The drawer leaves ABSENT by its settled sensor state (R89). -/
def Drawer.leaveAbsent (d : Drawer) (c : DrawerSettings) (now : Word32) : Drawer :=
  if d.settledOpen then { d.openAt c now .isOpen with failCount := 0 }
  else { d with cond := .closed, ajarFault := false, failCount := 0 }

/-- The result of a measurement (R88, R89). -/
def State.testResult (s : State) (l : Lane) (followed : Bool) : State :=
  let u := s.lane l
  if followed then
    let s := s.modDrawer l Drawer.failTest
    if (s.lane l).drawer.failCount = 2 ∧ u.drawer.cond ≠ .absent then s.drawerEvent l Drawer.toAbsent .absent 0 else s
  else
    let s := s.modDrawer l (fun d => { d with failCount := 0 })
    if u.drawer.cond = .absent then
      s.drawerEvent l (fun d => d.leaveAbsent u.settings.drawer s.run.clock) .present 0
    else s

/-! ## Starting, stopping and settings changes (R77, R94, R95) -/

/-- The controller runs while the lane is configured with drawer enable 1 (R77). -/
def LaneUnit.drawerRuns (u : LaneUnit) : Bool := u.configured && u.settings.drawer.enable

/-- The controller starts (R77); a stopped controller's kick output and timers are off already. -/
def Drawer.start (d : Drawer) (c : DrawerSettings) (now : Word32) : Drawer :=
  let d := { d.endKick with
    running := true, settledOpen := d.rawOpen, failCount := 0, presence := startUnlessZero (secTicks c.presenceS) }
  if d.rawOpen then d.openAt c now .isOpen else { d with cond := .closed }

/-- The controller stops (R77). -/
def Drawer.stop (d : Drawer) : Drawer :=
  { d.endKick.stopAjar with
    running := false, settle := none, presence := none, measuring := none, failCount := 0,
    cond := if d.cond = .kicking then .closed else d.cond }

/-- The presence interval of a controller that goes on running (R87, R94): a new 0 abandons a measurement and stops the timer;
a new nonzero interval starts a timer that was off. An abandoned measurement compares the raw reading (log 25). -/
def Drawer.newInterval (d : Drawer) (c : DrawerSettings) : Drawer :=
  if c.presenceS = 0 then
    if d.measuring.isSome then { d with measuring := none, presence := none }.compareRaw c else { d with presence := none }
  else if d.measuring.isNone && d.presence.isNone then { d with presence := some (secTicks c.presenceS) }
  else d

/-- The drawer controller takes the settings now in force in the lane (R77, R94, R95): it starts, stops or goes on, and a
presence interval of 0 ends ABSENT (R89). The SETTINGS record is offered where R77 or R89 calls for one; at LOADING the
device state produces none (R100). That a start or stop which changes the condition is a change like any other is log 26. -/
def State.reloadDrawer (s : State) (l : Lane) : State :=
  let u := s.lane l
  let c := u.settings.drawer
  let now := s.run.clock
  if u.drawerRuns then
    if u.drawer.running then
      let s := s.modDrawer l (fun d => d.newInterval c)
      if c.presenceS = 0 ∧ u.drawer.cond = .absent then s.drawerEvent l (fun d => d.leaveAbsent c now) .settings 0 else s
    else s.drawerEvent l (fun d => d.start c now) .settings 0
  else if u.drawer.running then s.drawerEvent l Drawer.stop .settings 0
  else s

/-- The baseline DRAWER record (R97). -/
def Drawer.baseline (d : Drawer) : RecordBody := d.record d.cond .baseline (word d.history.length)

/-! ## Orders to the drawer (R90 to R93) -/

/-- Why a DRAWER_KICK is refused, if it is: the first matching case of R90. -/
def LaneUnit.kickRefusal (u : LaneUnit) : Option (SlipOutcome × Nat) :=
  if u.laneState = .disabled ∨ u.laneState = .off then some (.laneOff, laneStateCode u.laneState)
  else if u.settings.drawer.enable = false then some (.drawerDisabled, 0)
  else if u.keylock.position = .lock then some (.laneMode, positionCode u.keylock.position)
  else if u.drawer.latch = true then some (.drawerLocked, u.drawer.history.length)
  else if u.drawer.cond = .absent then some (.drawerAbsent, u.drawer.failCount)
  else if u.drawer.cond = .closed ∨ u.drawer.cond = .jammed then none
  else some (.drawerBusy, u.drawer.cond.code)

end Sys2Proof.Machine
end

