-- ==== Sys2Proof/Machine/Status.lean ====
section
/-! DEFINITION. The part-written half of the anchor: the device status section and the lane status records (R162, R163, R184,
chapter 11.2). -/

namespace Sys2Proof.Machine

/-- The echo of a port block (chapter 11.2). -/
def PortSettings.echo (p : PortSettings) : List Byte :=
  padTo 16 (flagByte p.enable ++ byte1 p.rate ++ byte1 p.format.code ++ [p.terminator] ++ flagByte p.markMode ++
    byte1 p.minLength ++ byte1 p.gapMs ++ flagByte p.check ++ flagByte p.hostConfirm ++ flagByte p.reportDuplicates ++
    byte2 p.toneMs)

/-- The echo of settings bytes 0x00 to 0x17 (chapter 11.2). -/
def LaneSettings.echoKeys (c : LaneSettings) : List Byte :=
  padTo 24 (flagByte c.enable ++ flagByte c.drawer.enable ++ [c.selector] ++ maskBytes 1 c.wake ++ byte2 c.idleMin ++
    byte1 c.drive ++ byte1 c.sense ++ byte1 c.pass ++ byte1 c.debounce ++ byte1 c.rollover ++ flagByte c.isolated ++
    byte2 c.settleMs ++ byte2 c.typematicMs ++ byte2 c.repeatMs ++ byte2 c.dupWindowMs ++ maskBytes 1 c.inhibit)

/-- The echo of the drawer fields, settings bytes 0x48 to 0x53 (chapter 11.2). -/
def DrawerSettings.echo (d : DrawerSettings) : List Byte :=
  byte2 d.kickMs ++ byte2 d.confirmMs ++ byte2 d.alertS ++ byte2 d.faultS ++ byte1 d.settleMs ++ byte1 d.presenceS ++
    byte1 d.lockoutCount ++ byte1 d.lockoutMin

/-- The echo of the lane settings, settings bytes 0x00 to 0x53 at their effective values (chapter 11.2). -/
def LaneSettings.echo (c : LaneSettings) : List Byte :=
  c.echoKeys ++ maskBytes 16 c.repeatMap ++ c.portA.echo ++ c.portB.echo ++ c.drawer.echo

/-- The 128 bytes of a lane status record (R162, R184, chapter 11.2): an unconfigured lane's echo is 0. -/
def LaneUnit.status (u : LaneUnit) (clock : Word32) : List Byte :=
  padTo 128 (flagByte u.configured ++ byte1 (laneStateCode u.laneState) ++ byte1 (positionCode u.keylock.position) ++
    byte1 u.drawer.cond.code ++ byte1 (u.drawer.latch.toNat + 2 * u.drawer.ajarFault.toNat) ++
    byte1 u.drawer.history.length ++ maskBytes 1 u.noted ++ byte1 (u.clamped.toNat + 2 * u.held.toNat) ++ [0, 0, 0, 0] ++
    byte4 clock ++ (if u.configured then u.settings.echo else []))

/-- The echo of host part bytes 0x02 to 0x0B at their effective values (chapter 11.2). -/
def HostSettings.echo (h : HostSettings) : List Byte :=
  byte1 h.lanesInUse ++ byte1 h.pageCode ++ byte1 h.notice ++ byte1 h.urgent ++ byte1 h.flowHigh ++ byte1 h.flowLow ++
    byte2 h.lingerMs ++ byte1 h.recheckMs ++ maskBytes 1 h.enable

/-- The order cursor: the slip in hand, otherwise the last finished slip, or 0 (R140). -/
def Walker.cursor (w : Walker) : Word32 :=
  match w.current with
  | some sl => sl.offset
  | none => w.lastFinished.getD 0

/-- The 64 bytes of the device status section (R163, R184, chapter 11.2). -/
def State.deviceStatus (s : State) : List Byte :=
  padTo 64 (byte1 s.run.device.code ++ byte1 s.run.fault.code ++ byte2 s.run.runCount.toNat ++ flagByte s.unit.policyLock ++
    byte1 s.walker.state.code ++
    byte1 (s.journal.episode.toNat + 2 * s.staging.hold.toNat + 4 * s.unit.host.clamped.toNat) ++
    byte1 s.staging.queue.length ++ byte4 s.journal.journalSeq ++ byte4 s.journal.pageSeq ++
    byte4 ((s.journal.page.map OpenPage.offset).getD 0) ++ byte4 (s.journal.lastClosed.getD 0) ++ byte4 s.walker.cursor ++
    byte4 s.unit.stall.offset ++ byte1 s.unit.stall.reason.code ++ [s.unit.host.selector] ++ s.unit.host.echo ++
    byte4 s.run.clock)

/-- Where a status write goes: the section at 0x040, lane `l`'s record at 0x480 + 128 × l (chapter 11.2). -/
def StatusTarget.offset : StatusTarget → Word32
  | .device => 0x040
  | .lane l => BitVec.ofNat 32 (0x480 + 128 * l.val)

end Sys2Proof.Machine
end

