-- ==== Sys2Proof/Machine/Records.lean ====
section
/-! DEFINITION. The byte layout of journal records (chapter 11.4, R186). -/

namespace Sys2Proof.Machine

/-- The units of a text tail: ceil(L / 8) (R71). -/
def textUnits (text : List Byte) : Nat := (text.length + 7) / 8

/-- The units of a record, 2 to 8 (chapter 11.4). -/
def RecordBody.units : RecordBody → Nat
  | .keyImage .. => 4
  | .label _ _ _ text => 2 + textUnits text
  | .labelRefused _ (.check _ text) => 2 + textUnits text
  | .drawer .. => 3
  | .gap .. => 3
  | _ => 2

/-- The kind code of a record (chapter 11.4). -/
def RecordBody.kind : RecordBody → Nat
  | .keyDown .. => 1
  | .keyUp .. => 2
  | .keyRepeat .. => 3
  | .keyBlocked .. => 4
  | .keyImage .. => 5
  | .keylock .. => 6
  | .label .. => 7
  | .labelRefused .. => 8
  | .labelDuplicate .. => 9
  | .drawer .. => 10
  | .laneState .. => 11
  | .gap .. => 12
  | .mark .. => 13
  | .runStart .. => 14

/-- The port or detail byte (chapter 11.4). -/
def RecordBody.detail : RecordBody → Nat
  | .keyDown k _ | .keyUp k _ | .keyRepeat k _ | .keyBlocked k _ _ => k.val
  | .keylock new _ _ => positionCode new
  | .label p _ _ _ | .labelRefused p _ | .labelDuplicate p _ => portCode p
  | .drawer new .. => new.code
  | .laneState new _ => laneStateCode new
  | .keyImage .. | .gap .. | .mark .. | .runStart .. => 0

/-- The reason byte (chapter 11.4). -/
def RecordBody.reason : RecordBody → Nat
  | .keyBlocked _ r _ => r.code
  | .keyImage c _ _ _ => c.code
  | .keylock _ _ indeterminate => indeterminate.toNat
  | .label _ _ passed _ => if passed then 1 else 2
  | .labelRefused _ r => r.code
  | .drawer _ _ cause _ _ _ => cause.code
  | .laneState _ cause => cause.code
  | _ => 0

/-- The data of a refusal (chapter 11.4). -/
def RefuseReason.data : RefuseReason → List Byte
  | .damaged n | .long n | .short n | .held n | .cut n => byte1 n
  | .fragment n bad tooMany => byte1 n ++ byte1 0 ++ byte1 (bad.toNat + 2 * tooMany.toNat)
  | .check expected text => byte1 text.length ++ byte1 expected

/-- The four data bytes, before they are filled with 0 (chapter 11.4). The mark byte of a LABEL record without a mark is 0 (log 28). -/
def RecordBody.data : RecordBody → List Byte
  | .keyDown _ n | .keyUp _ n | .keyRepeat _ n | .keyBlocked _ _ n => byte1 n
  | .keyImage _ _ len blocked => byte1 len ++ byte1 blocked
  | .keylock _ old _ => byte1 (positionCode old)
  | .label _ m _ text =>
    byte1 text.length ++ byte1 (m.getD 0).toNat ++ flagByte m.isSome
  | .labelRefused _ r => r.data
  | .labelDuplicate _ elapsed => byte4 elapsed
  | .drawer _ _ _ _ _ value => byte4 value
  | .laneState _ cause => byte1 cause.sourceCode
  | .gap .. => []
  | .mark tag => byte4 tag
  | .runStart n => byte2 n.toNat

/-- The tail, before it is filled with 0 (chapter 11.4). -/
def RecordBody.tail : RecordBody → List Byte
  | .keyImage _ bitmap _ _ => maskBytes 16 bitmap
  | .label _ _ _ text => text
  | .labelRefused _ (.check _ text) => text
  | .drawer _ old _ latch ajarFault _ => byte1 old.code ++ byte1 (latch.toNat + 2 * ajarFault.toNat)
  | .gap c0 c1 c2 c3 => byte2 c0 ++ byte2 c1 ++ byte2 c2 ++ byte2 c3
  | _ => []

/-- The lane byte: the lane, or 0xFF for a record of no lane. -/
def laneByte : Option Lane → Nat
  | some l => l.val
  | none => 0xFF

/-- The bytes of a record as they are written into a page: units × 8 (R186). -/
def StagedRecord.bytes (r : StagedRecord) : List Byte :=
  padTo (8 * r.body.units)
    (byte1 r.body.kind ++ byte1 (laneByte r.lane) ++ byte1 r.body.units ++ byte1 r.body.cls ++ byte4 r.time ++
      byte2 r.seq.toNat ++ byte1 r.body.detail ++ byte1 r.body.reason ++ padTo 4 r.body.data ++ r.body.tail)

end Sys2Proof.Machine
end

