-- ==== Sys2Proof/Machine/Journal.lean ====
section
/-! DEFINITION. The journal writer: recovery, fetching, writing, closing and announcing pages, the drain (chapters 6
and 7). -/

namespace Sys2Proof.Machine

/-! ## Geometry (R116, R119) -/

/-- The page size of a page size code (R116). -/
def pageSize (code : Nat) : Nat := 256 * 2 ^ code

/-- The usable units of a page: its size less the 32-byte header, in units of 8 bytes (R116). -/
def usableUnits (code : Nat) : Nat := (pageSize code - 32) / 8

/-- A page offset is valid: not zero, a multiple of 64, and the page within the area length (R119). -/
def validPage (h : HostSettings) (offset : Word32) : Bool :=
  offset != 0 && offset.toNat % 64 == 0 && decide (offset.toNat + pageSize h.pageCode ≤ h.areaLength)

/-- The recheck timer as it starts: it does not run when the interval is 0 (R121, R139). -/
def HostSettings.recheckTimer (h : HostSettings) : Timer := startUnlessZero (msTicks h.recheckMs)

/-- The linger timer as it starts: with a linger of 0 it never runs (R128). -/
def HostSettings.lingerTimer (h : HostSettings) : Timer := startUnlessZero (msTicks h.lingerMs)

/-! ## Losses and recovery (R106, R109) -/

/-- The lane has at least one pending loss count above 0. -/
def LaneUnit.hasLoss (u : LaneUnit) : Bool :=
  decide (0 < u.losses[0]) || decide (0 < u.losses[1]) || decide (0 < u.losses[2]) || decide (0 < u.losses[3])

/-- Some lane has a pending loss. -/
def State.anyLoss (s : State) : Bool := allLanes.any fun l => (s.lane l).hasLoss

/-- The recovery of one lane (R109): GAP with its four counts, which become 0, and KEY_IMAGE(RESYNC) when class 0 was lost. -/
def State.recoverLane (s : State) (l : Lane) : State :=
  let u := s.lane l
  if u.hasLoss then
    let s := s.stage l (.gap u.losses[0] u.losses[1] u.losses[2] u.losses[3])
    let s := s.modLane l (fun u => { u with losses := Vector.replicate 4 0 })
    if 0 < u.losses[0] then s.stage l ((s.lane l).imageRecord .resync) else s
  else s

/-- A record has left the queue: at the flow low mark or below, flow hold is cleared and the recovery step taken (R106,
R109). -/
def State.afterLeave (s : State) : State :=
  if s.staging.queue.length ≤ s.unit.host.flowLow then
    ({ s with staging.hold := false }).forLanes fun l s => s.recoverLane l
  else s

/-! ## Fetching (R117 to R124) -/

/-- Where the link is read: the anchor's page head, or the next offset field of the last closed page (R118). -/
def Journal.linkOffset (j : Journal) : Word32 :=
  match j.fromAnchor, j.lastClosed with
  | false, some o => o + 0x1C
  | _, _ => 0x14

/-- A fetch starts with its link read (R120). -/
def State.startFetch (s : State) : State :=
  { s with journal.state := .needPage }.request .journal (readRequest .pageLinkRead s.journal.linkOffset 4)

/-- The end of the drain is reached (R133): STOPPING, the walker's report given, the queue empty and no loss pending. -/
def State.drained (s : State) : Bool :=
  s.run.device == .stopping && s.run.walkerDone && s.staging.queue.isEmpty && !s.anyLoss

/-- The starved episode ends (R121, R133). -/
def State.endEpisode (s : State) : State :=
  if s.journal.episode then { s with journal.episode := false, journal.recheck := none, unit.devRewrite := true }
  else { s with journal.recheck := none }

/-- The journal writer becomes HALTED at the end of the drain and reports it, and run control enters STOPPED (R133, R173).
Baseline captures are abandoned (R10). That the starved episode and its recheck timer end here in every state, not in STARVED alone, is
log 17. -/
def State.haltJournal (s : State) : State :=
  let s := s.endEpisode
  let s := { s with journal := { s.journal with state := .halted, linger := none, reread := false, rehead := false },
                    run.journalDone := true, run.device := .stopped, unit.devRewrite := true }
  s.forLanes fun l s => s.modLane l LaneUnit.dropCapture

/-- The first empty fetch of an episode: the flag is set, STARVED raised, the device status section to be rewritten, and the
recheck timer started (R121). -/
def State.beginEpisode (s : State) : State :=
  if s.journal.episode then s
  else ({ s with journal.episode := true, journal.recheck := s.unit.host.recheckTimer }.raise .starved).devRewrite

/-- A fetch ends without a page (R120, R121): `stale` is the stale page, or none for a zero link. At the end of the drain the
journal writer becomes HALTED instead (log 17), a stale page then being recorded by nothing and a zero link still setting the stale page
offset to none (R121, R133); a re-read pending flag set before stands until the fetch has ended (log 42). A NOTIFY or a
REHEAD_PAGES taken meanwhile starts a re-read at once (R122, R124), by which the recheck timer does not restart (log 38). -/
def State.fetchStarved (s : State) (stale : Option Word32) : State :=
  if s.drained then ({ s with journal.stale := stale.bind fun _ => s.journal.stale }).haltJournal
  else
    let s := { s with journal.stale := stale }
    let s := match stale with
      | some o => s.recordStall .journal .stalePage o
      | none => s
    let s := s.beginEpisode
    let again := s.journal.reread || s.journal.rehead
    let s := { s with journal.state := .starved, journal.reread := false, journal.rehead := false }
    if again then s.startFetch else s

/-- A fetch reads an invalid link (R123): BROKEN, CHAIN raised, the stall recorded, the episode ended. At the end of the drain the
journal writer is then HALTED (R133); otherwise a REHEAD_PAGES taken meanwhile starts a fetch at once (R124). -/
def State.fetchBroken (s : State) (link : Word32) : State :=
  let again := s.journal.rehead
  let s := ((s.raise .chain).recordStall .journal .badPageLink link).endEpisode
  let s := { s with journal := { s.journal with state := .broken, stale := none, reread := false, rehead := false } }
  if s.drained then s.haltJournal else if again then s.startFetch else s

/-- The link read completes (R120). -/
def State.pageLink (s : State) (link : Word32) : State :=
  if link = 0 then (s.clearStall .journal).fetchStarved none
  else if validPage s.unit.host link then s.request .journal (readRequest (.pageHeaderRead link) link 1)
  else s.fetchBroken link

/-- A FREE page is opened (R125): the fetch ends in FILLING, which ends the episode and clears the journal writer's stall
(R121), and linger starts when pages are unannounced. -/
def State.openPage (s : State) (offset : Word32) : State :=
  let s := (s.clearStall .journal).endEpisode
  let page : OpenPage :=
    { offset := offset, used := 0, count := 0, firstSeq := none, openTime := s.run.clock, lanes := 0, closing := none,
      closeTime := 0, lingerDue := false }
  { s with journal := { s.journal with
      state := .filling, page := some page, stale := none, reread := false, rehead := false,
      linger := if s.journal.unannounced = 0 then none else s.unit.host.lingerTimer } }

/-- The header read completes (R120): a FREE page is opened, any other is stale. -/
def State.pageHeader (s : State) (offset : Word32) (state : Byte) : State :=
  if state = 0 then s.openPage offset else s.fetchStarved (some offset)

/-! ## Writing and closing (R126 to R132) -/

/-- A close begins (R131): the reason and the time are fixed, linger stops, and the header body write is requested, bytes 0x01
to 0x1B of the header (R186). -/
def State.beginClose (s : State) (page : OpenPage) (why : CloseReason) : State :=
  let body := byte1 why.code ++ maskBytes 1 page.lanes ++ byte1 page.count ++ byte4 s.journal.pageSeq ++
    byte4 (page.firstSeq.getD 0) ++ byte2 page.used ++ [0, 0] ++ byte4 page.openTime ++ byte4 s.run.clock ++ [0, 0, 0, 0]
  { s with journal := { s.journal with
      page := some { page with closing := some why, closeTime := s.run.clock, lingerDue := false }, linger := none } }.request
    .journal (writeRequest .headerBodyWrite (page.offset + 1) body)

/-- The next record is written, or the page closed because it does not fit (R126, R127): while FILLING, with no close and no
write in flight. -/
def State.pumpRecord (s : State) : State :=
  match s.journal.state, s.journal.page, s.staging.queue with
  | .filling, some page, r :: _ =>
    if page.closing.isSome || s.dma.busy .journal then s
    else if r.body.units ≤ usableUnits s.unit.host.pageCode - page.used then
      s.request .journal (writeRequest .recordWrite (page.offset + BitVec.ofNat 32 (32 + 8 * page.used)) r.bytes)
    else s.beginClose page .full
  | _, _, _ => s

/-- One lane in a lanes mask. -/
def addLane (mask : BitVec 8) : Option Lane → BitVec 8
  | some l => setBit8 mask l
  | none => mask

/-- The page with one record more, of `r`'s units, written under journal sequence `seq` (R126). -/
def OpenPage.withRecord (page : OpenPage) (r : StagedRecord) (seq : Word32) : OpenPage :=
  { page with
    used := page.used + r.body.units
    count := page.count + 1
    firstSeq := some (page.firstSeq.getD seq)
    lanes := addLane page.lanes r.lane }

/-- The flush point after the head record has left the queue (R130): a flush point that was the head is now in the page. -/
def FlushPoint.afterWrite : FlushPoint → FlushPoint
  | .record 0 => .page
  | .record (n + 1) => .record n
  | p => p

/-- The reason, if any, for which the write just completed closes the page: LINGER when the timer expired during the write
(R128, log 14), otherwise the first of URGENT, FLUSH and FULL that applies (R127, R129, R130). -/
def closeAfterWrite (h : HostSettings) (page : OpenPage) (r : StagedRecord) (flushed : Bool) : Option CloseReason :=
  if page.lingerDue then some .linger
  else if h.urgent ≤ r.body.cls then some .urgent
  else if flushed then some .flush
  else if usableUnits h.pageCode - page.used < 2 then some .full
  else none

/-- A record write completes (R126): the record leaves the queue and joins the page under the current journal sequence,
linger starts with the page's first record, the recovery step is taken where R106 calls for it, and the page closes where
R127 to R130 call for it. -/
def State.recordWritten (s : State) : State :=
  match s.staging.queue, s.journal.page with
  | r :: rest, some page =>
    let page' := page.withRecord r s.journal.journalSeq
    let flush' := s.journal.flush.afterWrite
    let flushed := s.journal.flush == .record 0
    let linger' := if page'.count = 1 ∧ s.journal.linger = none ∧ page.lingerDue = false then s.unit.host.lingerTimer
      else s.journal.linger
    let s := { s with staging.queue := rest, journal := { s.journal with
      page := some page', journalSeq := s.journal.journalSeq + 1, flush := flush', linger := linger' } }
    let s := s.afterLeave
    match closeAfterWrite s.unit.host page' r flushed with
    | some why => s.beginClose page' why
    | none => s
  | _, _ => s

/-- The header body write completes: the CLOSED marker is written last (R131). -/
def State.bodyWritten (s : State) : State :=
  match s.journal.page with
  | some page => s.request .journal (writeRequest .closedMarkerWrite page.offset [1])
  | none => s

/-- A completed close is counted and announced (R132). -/
def State.announce (s : State) (why : CloseReason) : State :=
  let n := s.journal.unannounced + 1
  if s.unit.host.notice ≤ n ∨ why ≠ .full then ({ s with journal.unannounced := 0 }).raise .journal
  else { s with journal.unannounced := n }

/-- The linger timer expires (R128): a page with records closes, after a write in flight has completed; with an empty page
JOURNAL is raised and the unannounced count set to 0. -/
def State.lingerExpired (s : State) : State :=
  match s.journal.page with
  | none => s
  | some page =>
    if page.closing.isSome then s
    else if page.count = 0 then ({ s with journal.unannounced := 0, journal.linger := none }).raise .journal
    else if s.dma.busy .journal then
      { s with journal.page := some { page with lingerDue := true }, journal.linger := none }
    else s.beginClose page .linger

/-! ## The drain (R133) -/

/-- The open page without records is released: absent, with nothing written to it (R133). -/
def State.releasePage (s : State) : State := { s with journal.page := none }.haltJournal

/-- At the end of the drain the journal writer ends its page work according to its state (R133). A close or a fetch in flight
completes first. -/
def State.pumpDrain (s : State) : State :=
  if s.drained then
    match s.journal.state, s.journal.page with
    | .filling, some page =>
      if page.closing.isSome || s.dma.busy .journal then s
      else if page.count = 0 then s.releasePage
      else s.beginClose page .stop
    | .starved, _ => s.haltJournal
    | .broken, _ => s.haltJournal
    | _, _ => s
  else s

end Sys2Proof.Machine
end

