-- ==== Sys2Proof/Machine/Walker.lean ====
section
/-! DEFINITION. The order walker (chapter 8), and the page close that answers a FLUSH (R131). -/

namespace Sys2Proof.Machine

/-- A slip offset is valid: not zero, a multiple of 64, and the slip within the area length (R137). -/
def validSlip (h : HostSettings) (offset : Word32) : Bool :=
  offset != 0 && offset.toNat % 64 == 0 && decide (offset.toNat + 64 ≤ h.areaLength)

/-- Where the link is read: the anchor's order head, or the next offset field of the last finished slip (R136). -/
def Walker.linkOffset (w : Walker) : Word32 :=
  match w.fromAnchor, w.lastFinished with
  | false, some o => o + 0x08
  | _, _ => 0x10

/-- A fetch starts with its link read; `again` says that it is a re-read of a parked walker (R138, R139). -/
def State.walkerFetch (s : State) (again : Bool) : State :=
  { s with walker.state := .fetching, walker.isReread := again }.request .walker
    (readRequest .orderLinkRead s.walker.linkOffset 4)

/-- The walker becomes HALTED in STOPPING and reports to run control (R152). That its re-read pending flag is cleared here, and not only
at the next RUNNING (R136), is log 46; that the recheck timer stops here also where a re-read was in flight at HALT is log 47. -/
def State.haltWalker (s : State) : State :=
  { s with walker := { s.walker with state := .halted, recheck := none, reread := false, rehead := false },
           run.walkerDone := true, unit.devRewrite := true }

/-- The walker enters PARKED (R139): the recheck timer starts when the fetch was not a re-read. -/
def Walker.park (w : Walker) (h : HostSettings) : Walker :=
  { w with state := .parked, recheck := if w.isReread then w.recheck else h.recheckTimer }

/-- A fetch ends PARKED (R138 to R140): on a stale slip, which raises STALL unless it is the one already recorded, or on a
zero link. That the device status section is rewritten on entry to PARKED for a slip already recorded too, of whose stall R140 says
that nothing is rewritten, is log 44. In STOPPING it raises and records nothing and keeps the stale slip offset, and the walker becomes HALTED (R152); that a
zero link clears the walker's stall there too is log 39. A NOTIFY or a REHEAD_ORDERS taken meanwhile starts a re-read at once (R139,
R142), by which the recheck timer does not restart (log 38). -/
def State.fetchParked (s : State) (stale : Option Word32) : State :=
  if s.run.device = .stopping then (if stale.isSome then s else s.clearStall .walker).haltWalker
  else
    let s := match stale with
      | some o =>
        if s.walker.stale = some o then s
        else ((s.raise .stall).recordStall .walker .staleSlip o)
      | none => s.clearStall .walker
    let again := s.walker.reread || s.walker.rehead
    let w := ({ s.walker with stale := stale, reread := false, rehead := false }).park s.unit.host
    let s := { s with walker := w, unit.devRewrite := true }
    if again then s.walkerFetch true else s

/-- A fetch reads an invalid link (R141): BROKEN, CHAIN raised, the stall recorded, no stale slip offset. In STOPPING the walker then
becomes HALTED (R152, log 18), and the stale slip offset is none there too (R141), though R152 keeps it (log 45). A REHEAD_ORDERS taken meanwhile starts a fetch at once (R142, log 20). -/
def State.walkerBroken (s : State) (link : Word32) : State :=
  let again := s.walker.rehead
  let s := (s.raise .chain).recordStall .walker .badSlipLink link
  let s := { s with walker := { s.walker with state := .broken, stale := none, reread := false, rehead := false, recheck := none } }
  if s.run.device = .stopping then s.haltWalker
  else if again then s.walkerFetch false
  else s

/-- The link read completes (R138). -/
def State.orderLink (s : State) (link : Word32) : State :=
  if link = 0 then s.fetchParked none
  else if validSlip s.unit.host link then s.request .walker (readRequest (.slipRead link) link 64)
  else s.walkerBroken link

/-- A POSTED slip becomes the current slip and its TAKEN write is requested (R138, R143, R185): the fetch ends in WORKING,
which clears the walker's stall (R140). A re-read that finds one leaves PARKED, which is rewritten (R163, log 19). -/
def State.takeSlip (s : State) (sl : Slip) : State :=
  let s := s.clearStall .walker
  { s with unit.devRewrite := s.unit.devRewrite || s.walker.isReread, walker := { s.walker with
      state := .working, current := some sl, stage := .taking, stale := none, reread := false, rehead := false,
      recheck := none } }.request .walker (writeRequest .takenWrite sl.offset [2])

/-- The slip read completes (R138): a POSTED slip is taken, but not in STOPPING (R152); any other is stale. -/
def State.slipRead (s : State) (offset : Word32) (data : List Byte) : State :=
  if byteAt data 0 = 1 then
    if s.run.device = .stopping then s.haltWalker else s.takeSlip (slipOf offset data)
  else s.fetchParked (some offset)

/-- The bytes of the body write, 0x1C to 0x37 of the slip (R143, R185). -/
def Answer.body (a : Answer) (finish : Word32) : List Byte :=
  byte1 a.outcome.code ++ [0] ++ byte2 a.detail.toNat ++ byte4 finish ++ padTo 20 a.result

/-- The walker takes an answer and requests the body write; the finish time is the clock now (R143). An answer that finds no
slip in hand reaches nobody. -/
def State.answer (s : State) (a : Answer) : State :=
  match s.walker.current with
  | some sl =>
    { s with walker.state := .working, walker.stage := .body a }.request .walker
      (writeRequest .slipBodyWrite (sl.offset + 0x1C) (a.body s.run.clock))
  | none => s

/-- The TAKEN write completes (R143): the slip-level checks refuse the slip (R144), or the order is handed to its owner. -/
def State.takenWritten (s : State) : State :=
  match s.walker.current with
  | some sl =>
    match checkSlip s.unit.host.lanesInUse sl with
    | .error a => s.answer a
    | .ok o => { s with walker.stage := .handed o }
  | none => s

/-- The order that the walker has handed on and its owner has still to take (R143; log 3). -/
def Walker.handed (w : Walker) : Option Order :=
  match w.state, w.stage with
  | .working, .handed o => some o
  | _, _ => none

/-- An owner whose work takes time leaves the walker WAITING (R143). -/
def State.wait (s : State) : State := { s with walker.state := .waiting, walker.stage := .waiting }

/-- The body write completes: DONE for an acceptance, REFUSED for a refusal (R143). -/
def State.slipBodyWritten (s : State) : State :=
  match s.walker.current, s.walker.stage with
  | some sl, .body a =>
    { s with walker.stage := .finish }.request .walker
      (writeRequest .slipStateWrite sl.offset [if a.outcome = SlipOutcome.ok then 3 else 4])
  | _, _ => s

/-- The state write completes and the slip is finished (R143): ORDER is raised when its notify flag is set, and the walker
fetches the next slip in RUNNING, or becomes HALTED in STOPPING (R152). -/
def State.slipFinished (s : State) : State :=
  match s.walker.current with
  | some sl =>
    let s := { s with unit.devRewrite := true, walker := { s.walker with
        fromAnchor := false, lastFinished := some sl.offset, current := none, stage := .none } }
    let s := if sl.notifies then s.raise .order else s
    if s.run.device = .stopping then s.haltWalker else s.walkerFetch false
  | none => s

/-- The CLOSED marker write completes and with it the close (R131): the page sequence advances, the page becomes the last
closed one and the source of links, the close is announced (R132), a FLUSH whose point the page holds is answered (R149), and
the next fetch starts, or at the end of the drain the journal writer becomes HALTED (R133). -/
def State.pageClosed (s : State) : State :=
  match s.journal.page with
  | some page =>
    let why := page.closing.getD .full
    let seq := s.journal.pageSeq
    let flushed := s.journal.flush == .page
    let s := { s with unit.devRewrite := true, journal := { s.journal with
        pageSeq := seq + 1, lastClosed := some page.offset, fromAnchor := false, page := none,
        flush := if flushed then .none else s.journal.flush } }
    let s := s.announce why
    let s := if flushed then s.answer (accepted why.code (byte4 page.offset ++ byte4 seq)) else s
    if s.drained then s.haltJournal else s.startFetch
  | none => s

end Sys2Proof.Machine
end

