-- ==== Sys2Proof/Machine/Control.lean ====
section
/-! DEFINITION. Run control (chapter 10): resets, starting and stopping a run, faults, NOTIFY and the REHEAD commands. -/

namespace Sys2Proof.Machine

/-! ## Resets (R182) -/

/-- The values a lane unit has after a reset, but for its input pins, which no reset moves (R19, R40, R59, R75, R99, log 7). -/
def LaneUnit.cleared (u : LaneUnit) : LaneUnit :=
  { LaneUnit.reset with
    keylock := { Keylock.reset with contacts := u.keylock.contacts }
    drawer := { Drawer.reset with rawOpen := u.drawer.rawOpen } }

/-- The entries of a history on the clock that a reset sets to 0 (R99). -/
def rebase (history : List Word32) (clock : Word32) : List Word32 := history.map fun t => t - clock

/-- A lane unit after a reset (R19, R40, R59, R75, R99, R165, R169): a soft reset keeps the lockout latch, the history with its
ages, and the drawer store. -/
def LaneUnit.afterReset (u : LaneUnit) (kind : ResetKind) (clock : Word32) : LaneUnit :=
  match kind with
  | .powerOn | .link => u.cleared
  | .soft =>
    { u.cleared with
      store := u.store
      drawer := { u.cleared.drawer with history := rebase u.drawer.history clock, latch := u.drawer.latch } }

/-- Run control and the registers after a reset (R182): a soft reset keeps the area base. -/
def RunControl.afterReset (r : RunControl) (kind : ResetKind) : RunControl :=
  match kind with
  | .powerOn | .link => { RunControl.reset with lastReset := kind }
  | .soft => { RunControl.reset with lastReset := kind, areaLow := r.areaLow, areaHigh := r.areaHigh }

/-- The settings unit after a reset (R169): a soft reset keeps the policy lock. -/
def SettingsUnit.afterReset (u : SettingsUnit) (kind : ResetKind) : SettingsUnit :=
  match kind with
  | .powerOn | .link => .reset
  | .soft => { SettingsUnit.reset with policyLock := u.policyLock }

/-- A reset (R182): the request in flight is abandoned (log 6), every waiting request dropped, and every block takes its reset
values (R114, R135, R154, R168, R169). Host memory, the input pins and the commands that wait lie outside the part. -/
def State.resetAs (s : State) (kind : ResetKind) : State :=
  let s := s.abandon
  { s with
    run := s.run.afterReset kind
    lanes := s.lanes.map (fun u => u.afterReset kind s.run.clock)
    staging := .reset
    journal := .reset
    walker := .reset
    unit := s.unit.afterReset kind
    dma := .reset }

/-! ## Starting and stopping a run -/

/-- RUN taken (R171): LOADING, with the run count advanced, the drain marks clear and the load begun. -/
def State.startRun (s : State) : State :=
  { s with
    run := { s.run with device := .loading, runCount := s.run.runCount + 1, walkerDone := false, journalDone := false }
    unit := { s.unit with devRewrite := true, load := .hostPart } }

/-- Every frame in ASSEMBLING is cut (R50, R51). -/
def State.cutAll (s : State) : State := s.forLanes fun l s => (s.cutFrame l .a).cutFrame l .b

/-- A walker that is PARKED or BROKEN at HALT is HALTED at once; any other finishes its slip or its fetch first (R152). -/
def State.haltIdleWalker (s : State) : State :=
  match s.walker.state with
  | .parked | .broken => s.haltWalker
  | .idle | .fetching | .working | .waiting | .halted => s

/-- HALT taken (R173, R152): STOPPING, with the frames cut and the walker's part of the drain begun. -/
def State.stopRun (s : State) : State :=
  { s with run.device := .stopping, unit.devRewrite := true }.cutAll.haltIdleWalker

/-! ## Faults (R181) -/

/-- Entry to FAULTED (R181): FAULT is raised, the frames are cut without record or count (R51), baseline captures are abandoned
(R10), and the walker stops in HALTED with its slip kept (R153, log 23), which asks for a rewrite of the device status section
unless it was HALTED already (R163); none is made in FAULTED (R164). The keylock readers, keyboard scanners and drawer controllers of
configured lanes go on, on the first LOADING too when the delivery has configured them (log 36). -/
def State.enterFaulted (s : State) (why : FaultReason) : State :=
  let s := ({ s with run.device := .faulted, run.fault := why }.raise .fault).cutAll
  let s := s.forLanes fun l s => s.modLane l LaneUnit.dropCapture
  { s with
    walker.state := .halted
    walker.recheck := none
    unit.devRewrite := s.unit.devRewrite || s.walker.state != .halted }

/-- A link abort (R134, R153, R168): beside the fault, the journal writer stops in HALTED with its page, flush point and queue
kept, its timers stopped (log 24); the aborted request is gone, and the waiting ones are neither granted nor answered. -/
def State.linkAbort (s : State) : State :=
  let s := s.abandon.enterFaulted .linkAbort
  { s with journal := { s.journal with state := .halted, linger := none, recheck := none } }

/-! ## NOTIFY (R122, R139, R177) -/

/-- A re-read of a STARVED journal writer for NOTIFY or at a recheck expiry: the recheck timer restarts (R121). -/
def State.journalReread (s : State) : State := { s with journal.recheck := s.unit.host.recheckTimer }.startFetch

/-- NOTIFY at the journal writer (R122). -/
def State.notifyJournal (s : State) : State :=
  match s.journal.state with
  | .starved => s.journalReread
  | .needPage => { s with journal.reread := true }
  | .idle | .filling | .broken | .halted => s

/-- A re-read of a PARKED walker for NOTIFY or at a recheck expiry: the recheck timer restarts (R139), and leaving PARKED is to
be rewritten (R140, R163). -/
def State.walkerReread (s : State) : State :=
  { s with walker.recheck := s.unit.host.recheckTimer, unit.devRewrite := true }.walkerFetch true

/-- NOTIFY at the order walker (R139). -/
def State.notifyWalker (s : State) : State :=
  match s.walker.state with
  | .parked => s.walkerReread
  | .fetching => { s with walker.reread := true }
  | .idle | .working | .waiting | .broken | .halted => s

/-- NOTIFY starts a re-read or sets a re-read pending flag (R122, R139); otherwise it is gone (R177). -/
def State.takesNotify (s : State) : Bool :=
  s.journal.state == .starved || s.journal.state == .needPage || s.walker.state == .parked || s.walker.state == .fetching

/-! ## Recheck expiries (R121, R139) -/

/-- The journal writer's recheck timer expires (R121): a re-read, or with one in flight the re-read pending flag; the timer
restarts. -/
def State.journalRecheck (s : State) : State :=
  match s.journal.state with
  | .starved => s.journalReread
  | .needPage => { s with journal.reread := true, journal.recheck := s.unit.host.recheckTimer }
  | .idle | .filling | .broken | .halted => s

/-- The walker's recheck timer expires (R139). -/
def State.walkerRecheck (s : State) : State :=
  match s.walker.state with
  | .parked => s.walkerReread
  | .fetching => { s with walker.reread := true, walker.recheck := s.unit.host.recheckTimer }
  | .idle | .working | .waiting | .broken | .halted => s

/-! ## The REHEAD commands (R124, R142, R170) -/

/-- The journal writer takes REHEAD_PAGES (R124): STARVED, BROKEN, a re-read of a starved episode in flight, or HALTED in
STOPPED. -/
def State.takesReheadPages (s : State) : Bool :=
  match s.journal.state with
  | .starved | .broken => true
  | .needPage => s.journal.episode
  | .halted => s.run.device == .stopped
  | .idle | .filling => false

/-- The order walker takes REHEAD_ORDERS (R142): PARKED, BROKEN, a re-read in flight, or HALTED in STOPPED. -/
def State.takesReheadOrders (s : State) : Bool :=
  match s.walker.state with
  | .parked | .broken => true
  | .fetching => s.walker.isReread
  | .halted => s.run.device == .stopped
  | .idle | .working | .waiting => false

/-- A REHEAD_PAGES that the journal writer takes (R124). -/
def State.reheadJournal (s : State) : State :=
  let s := { s with journal.fromAnchor := true }
  match s.journal.state with
  | .starved | .broken => s.startFetch
  | .needPage => { s with journal.rehead := true }
  | .idle | .filling | .halted => s

/-- A REHEAD_ORDERS that the order walker takes (R142); leaving PARKED is to be rewritten (R140, R163). -/
def State.reheadWalker (s : State) : State :=
  let s := { s with walker.fromAnchor := true }
  match s.walker.state with
  | .parked => { s with unit.devRewrite := true }.walkerFetch true
  | .broken => s.walkerFetch false
  | .fetching => { s with walker.rehead := true }
  | .idle | .working | .waiting | .halted => s

/-! ## The area base (R175, R176) -/

/-- A write of AREA_LOW or AREA_HIGH (R176), taken in RESET_IDLE and STOPPED; bits 11 to 0 of AREA_LOW stay 0. -/
def State.writeArea (s : State) (high : Bool) (value : Word32) (bytes : BitVec 4) : State :=
  match s.run.device with
  | .resetIdle | .stopped =>
    if high then { s with run.areaHigh := mergeBytes s.run.areaHigh value bytes }
    else { s with run.areaLow := mergeBytes s.run.areaLow value bytes &&& 0xFFFFF000 }
  | .loading | .running | .stopping | .faulted => s

/-- A read of CAUSE (R175, R180): it returns the bytes addressed of the pending set and the top cause (log 11), and leaves the
pending set empty. -/
def State.readCause (s : State) (bytes : BitVec 4) : State :=
  { s with causeReadData := s.causeWord &&& bytesMask bytes, run.causes := 0 }

end Sys2Proof.Machine
end

