-- ==== Sys2Proof/Machine/SettingsUnit.lean ====
section
/-! DEFINITION. The settings unit (chapter 9): the load of LOADING, the delivery of settings to the lanes, the reload of one
lane, the run-start baseline set, and the rewrites of the part-written half of the anchor. -/

namespace Sys2Proof.Machine

/-! ## A lane and its settings -/

/-- The drawer fields that the policy lock holds for a lane's next load: its store when the lock is set (R161). -/
def State.heldDrawer (s : State) (l : Lane) : Option DrawerSettings :=
  if s.unit.policyLock then (s.lane l).store else none

/-- The lane takes a settings record as loaded (R156, R158, R161): the effective settings, the clamped and drawer-held flags of
this load, and the drawer store, which holds the fields just delivered. -/
def LaneUnit.takeSettings (u : LaneUnit) (data : List Byte) (held : Option DrawerSettings) : LaneUnit :=
  let loaded := loadLane data held
  { u with settings := loaded.1, clamped := loaded.2, held := held.isSome, store := some loaded.1.drawer }

/-- A lane at or above lanes in use at LOADING (R1): its reset values, with the lockout latch and the history (R95) and the
drawer store (R161) kept. Its status record is written like every other (R155, R162). That the clamped and drawer-held flags of its last
load are cleared with the rest is log 48. -/
def LaneUnit.unconfigure (u : LaneUnit) : LaneUnit :=
  { u.cleared with
    store := u.store
    rewrite := true
    drawer := { u.cleared.drawer with history := u.drawer.history, latch := u.drawer.latch } }

/-- The keyboard scanner at LOADING (R38): a scanner that goes on SCANNING takes the settings as a reload would, and any other
takes the mode its lane state calls for, without a capture (R18). -/
def LaneUnit.loadKeyboard (u : LaneUnit) (old : LaneSettings) : LaneUnit :=
  if u.scanMode = .scanning ∧ u.kb.mode = .scanning then { u with kb := u.kb.withSettings old u.settings }
  else u.followScan

/-- The lane unit's own part of the delivery at LOADING (R1, R4, R12, R38, R74, R115): configured, ACTIVE or DISABLED without a
record, the idle timer loaded, the acceptor without a last label, the lane sequence 0. -/
def LaneUnit.configure (u : LaneUnit) (data : List Byte) (held : Option DrawerSettings) : LaneUnit :=
  let v := u.takeSettings data held
  ({ v with
    configured := true
    laneState := if v.settings.enable then .active else .disabled
    idle := if v.settings.enable then v.settings.idlePeriod else none
    acceptor := .reset
    seq := 0
    rewrite := true }.loadKeyboard u.settings).followReader

/-- The ports and the drawer of a lane configured at LOADING take their settings (R58, R59, R54, R95). The device state lets no
record come of it (R51, R100). -/
def State.configureLane (s : State) (l : Lane) (data : List Byte) : State :=
  let s := s.modLane l (fun u => u.configure data (s.heldDrawer l))
  let s := (s.reloadPort l .a).reloadPort l .b
  let s := (s.modPort l .a (fun q => { q with orderEnable := true })).modPort l .b (fun q => { q with orderEnable := true })
  s.reloadDrawer l

/-! ## The load (R155) -/

/-- The targets of step 4, in the order R155 gives. -/
def allTargets : List StatusTarget := .device :: allLanes.map StatusTarget.lane

/-- The journal writer at the delivery of LOADING (R117): what a run starts afresh. -/
def Journal.load (j : Journal) : Journal :=
  { j with journalSeq := 0, unannounced := 0, episode := false, stale := none, reread := false, rehead := false,
           flush := .none, linger := none, recheck := none }

/-- The delivery moment of the load (R155 step 3, R171, R115, R117): the host settings, the cause enable mask and every lane's
settings at one moment; then step 4 begins, with every rewrite pending. That the sequences go to 0 at this moment is log 22. -/
def State.deliver (s : State) : State :=
  let records := s.unit.loadRecords
  let s := { s with
    run.enable := s.unit.loadHost.enable
    staging.devSeq := 0
    journal := s.journal.load
    unit := { s.unit with host := s.unit.loadHost, devRewrite := true, load := .status allTargets, loadRecords := [] } }
  s.forLanes fun l s => match records[l.val]? with
    | some data => s.configureLane l data
    | none => s.modLane l LaneUnit.unconfigure

/-- The host part is read (R155 step 1, R171): a good one is clamped and the lane records follow; a bad one ends the load with
the device FAULTED (R181). -/
def State.hostPart (s : State) (data : List Byte) : State :=
  if hostPartGood data then
    { s with unit.loadHost := loadHost data, unit.loadRecords := [], unit.load := .laneRecord 0 }
  else { s with unit.load := .idle }.enterFaulted .anchorBad

/-- A lane record is read (R155 step 2): the next lane in use follows, or the delivery. -/
def State.laneRecord (s : State) (l : Lane) (data : List Byte) : State :=
  let s := { s with unit.loadRecords := s.unit.loadRecords ++ [data] }
  if l.val + 1 < s.unit.loadHost.lanesInUse then { s with unit.load := .laneRecord (l + 1) } else s.deliver

/-- The keyboard and drawer records of a lane in the baseline set (R18): KEYLOCK with equal positions, KEY_IMAGE(BASELINE) when
the lane is ACTIVE, and the drawer's baseline record when drawer enable is 1 (R97). -/
def LaneUnit.baselineRecords (u : LaneUnit) : List RecordBody :=
  if u.configured && (u.settings.enable || u.settings.drawer.enable) then
    [.keylock u.keylock.position u.keylock.position false] ++
      (if u.laneState = .active then [u.imageRecord .baseline] else []) ++
      (if u.settings.drawer.enable then [u.drawer.baseline] else [])
  else []

/-- The run-start baseline set enters the staging queue as one entry (R18, R112). -/
def State.stageBaseline (s : State) : State :=
  (s.stageDevice (.runStart s.run.runCount)).forLanes fun l s => (s.lane l).baselineRecords.foldl (fun s b => s.stage l b) s

/-- Loading is complete (R172): RUNNING with the baseline set staged; the journal writer and the walker start their first
fetches (R117, R136). -/
def State.enterRunning (s : State) : State :=
  let s := { s with run.device := .running, unit.load := .idle, unit.devRewrite := true }
  let s := s.stageBaseline.startFetch
  { s with walker := { s.walker with stale := none, reread := false, rehead := false, recheck := none } }.walkerFetch false

/-- A status write completes (R155 step 5, R164): the last one of the load ends it. -/
def State.statusWritten (s : State) : State :=
  match s.run.device, s.unit.load with
  | .loading, .status [] => s.enterRunning
  | _, _ => s

/-! ## The reload of one lane (R147, R160) -/

/-- The keyboard scanner of a lane whose state the reload left as it was (R10, R35, R36): a capture starts anew, a scanning
scanner takes the settings and offers KEY_IMAGE(RELOAD) when image keys were removed or moved, and any-key sensing begins
again, starts or stops with the wake mask. -/
def State.reloadKeyboard (s : State) (l : Lane) (old : LaneSettings) : State :=
  let u := s.lane l
  if u.scanMode ≠ u.kb.mode then s.setLane l u.followScan
  else match u.kb.mode with
    | .idle => s
    | .anyKey => s.modKb l Keyboard.waitClear
    | .scanning =>
      if u.kb.capture.isSome then s.setLane l u.startCapture
      else
        let s := s.modKb l (fun kb => kb.withSettings old u.settings)
        if u.kb.disturbed u.settings then s.offer l ((s.lane l).imageRecord .reload) else s

/-- The lane state under the new lane enable (R11): a change with its LANE_STATE(SETTINGS) record, or the idle timer of an
ACTIVE lane restarted with the new idle time (R4). -/
def State.reloadState (s : State) (l : Lane) : State :=
  let u := s.lane l
  if u.settings.enable then
    if u.laneState = .disabled then s.changeLane l .active .settings true else s.restartIdle l
  else if u.laneState = .disabled then s else s.changeLane l .disabled .settings false

/-- The delivery of a reload to every part of the lane unit, in the order of its records (R11, R36, R58, R60, R94). What the delivery
itself counts is ruled by the inhibit mask it brings (R165; log 43). -/
def State.deliverReload (s : State) (l : Lane) (data : List Byte) : State :=
  let before := s.lane l
  let s := (s.modLane l (fun u => u.takeSettings data (s.heldDrawer l))).reloadState l
  let s := (s.reloadPort l .a).reloadPort l .b
  let s := if (s.lane l).laneState = before.laneState then s.reloadKeyboard l before.settings else s
  (s.modLane l LaneUnit.followReader).reloadDrawer l

/-- The answer to a LANE_RELOAD (R147): the CLAMPED and DRAWER_HELD flags, and the lane state just before and just after
the delivery (log 27). -/
def reloadAnswer (before after : LaneUnit) : Answer :=
  accepted (after.clamped.toNat + 2 * after.held.toNat)
    (byte1 (laneStateCode before.laneState) ++ byte1 (laneStateCode after.laneState))

/-- The reload's settings read completes (R147 step 2): the delivery, and then the echo write is to be requested. -/
def State.reloadRead (s : State) (l : Lane) (data : List Byte) : State :=
  let s' := s.deliverReload l data
  { s' with unit.reload := some (.echo l (reloadAnswer (s.lane l) (s'.lane l))) }

/-- The reload's echo write completes (R147 step 4): the walker is answered. -/
def State.echoWritten (s : State) : State :=
  match s.unit.reload with
  | some (.echo _ a) => { s with unit.reload := none }.answer a
  | _ => s

/-! ## Requests of the settings unit (R155, R162 to R164, R184) -/

/-- The device status section is written: its flag is cleared and every value taken as it stands (R163, R164, R184). -/
def State.writeDeviceStatus (s : State) : State :=
  { s with unit.devRewrite := false }.request .settings
    (writeRequest .deviceStatusWrite (StatusTarget.offset .device) s.deviceStatus)

/-- Lane `l`'s status record is written for `why`: its flag is cleared and every value taken as it stands (R162, R164, R184). -/
def State.writeLaneStatus (s : State) (l : Lane) (why : Purpose) : State :=
  (s.modLane l (fun u => { u with rewrite := false })).request .settings
    (writeRequest why (StatusTarget.offset (.lane l)) ((s.lane l).status s.run.clock))

/-- The lowest lane whose rewrite is pending. -/
def State.rewriteLane (s : State) : Option Lane := allLanes.find? fun l => (s.lane l).rewrite

/-- The next rewrite that is pending: the device status section first, then the lanes, lowest first (R164). -/
def State.nextRewrite (s : State) : Option StatusTarget :=
  if s.unit.devRewrite then some .device else s.rewriteLane.map StatusTarget.lane

/-- One rewrite of the part-written half of the anchor. -/
def State.rewriteTarget (s : State) (t : StatusTarget) : State :=
  match t with
  | .device => s.writeDeviceStatus
  | .lane l => s.writeLaneStatus l (.laneStatusWrite l)

/-- The next rewrite, if one is pending (R164). -/
def State.pumpRewrite (s : State) : State :=
  match s.nextRewrite with
  | some t => s.rewriteTarget t
  | none => s

/-- The next rewrite of step 4; its target is then no longer to be written for the load (R155; log 21). -/
def State.pumpStatus (s : State) (left : List StatusTarget) : State :=
  match s.nextRewrite with
  | some t => { s.rewriteTarget t with unit.load := .status (left.filter (· ≠ t)) }
  | none => s

/-- Where a lane's settings record stands (chapter 11.2). -/
def laneRecordOffset (l : Lane) : Word32 := BitVec.ofNat 32 (0x80 + 128 * l.val)

/-- The next request of the load (R155). -/
def State.pumpLoad (s : State) : State :=
  match s.unit.load with
  | .idle => s
  | .hostPart => s.request .settings (readRequest .hostPartRead 0 64)
  | .laneRecord l => s.request .settings (readRequest (.laneSettingsRead l) (laneRecordOffset l) 128)
  | .status left => s.pumpStatus left

/-- The next request of a run: the reload in hand first, then the rewrites (R164). -/
def State.pumpRun (s : State) : State :=
  match s.unit.reload with
  | some (.read l) => s.request .settings (readRequest (.reloadRead l) (laneRecordOffset l) 128)
  | some (.echo l _) => s.writeLaneStatus l (.reloadEcho l)
  | none => s.pumpRewrite

/-- The settings unit makes its next request when it has none waiting or in flight (R155, R164): none in RESET_IDLE or FAULTED. -/
def State.pumpSettings (s : State) : State :=
  if s.dma.busy .settings then s
  else match s.run.device with
    | .loading => s.pumpLoad
    | .running | .stopping | .stopped => s.pumpRun
    | .resetIdle | .faulted => s

/-! ## The end of an event -/

/-- What follows every event in the same step: the journal writer goes on with the head of the queue (R126) and with the end of
the drain (R133), the settings unit with its next request (R164), and the arbiter grants a free engine (R167, log 34). -/
def State.settle (s : State) : State := s.pumpRecord.pumpDrain.pumpSettings.grant

end Sys2Proof.Machine
end

