-- ==== Sys2Proof/Machine/HostCommands.lean ====
section
/-! DEFINITION. What the host and the link command: the resets, the CONTROL commands, the register accesses, and an aborted
DMA request (chapter 10). -/

namespace Sys2Proof.Machine

/-- What a step answers. -/
abbrev Outcome := Host.Outcome State Fault Refusal

/-- POWER_ON_RESET (R182). -/
def execPowerOnReset (s : State) : Outcome := .next (s.resetAs .powerOn)

/-- LINK_RESET (R182). -/
def execLinkReset (s : State) : Outcome := .next (s.resetAs .link)

/-- RESET, in every device state (R170, R182). -/
def execReset (s : State) : Outcome := .next (s.resetAs .soft)

/-- RUN, taken in RESET_IDLE and STOPPED (R170, R171). -/
def execRun (s : State) : Outcome :=
  match s.run.device with
  | .resetIdle | .stopped => .next s.startRun.settle
  | .loading | .running | .stopping | .faulted => .next s

/-- HALT, taken in RUNNING (R170, R173). -/
def execHalt (s : State) : Outcome :=
  match s.run.device with
  | .running => .next s.stopRun.settle
  | .resetIdle | .loading | .stopping | .stopped | .faulted => .next s

/-- REHEAD_ORDERS, passed to the order walker (R142, R170). -/
def execReheadOrders (s : State) : Outcome :=
  if s.takesReheadOrders then .next s.reheadWalker.settle else .next s

/-- REHEAD_PAGES, passed to the journal writer (R124, R170). -/
def execReheadPages (s : State) : Outcome :=
  if s.takesReheadPages then .next s.reheadJournal.settle else .next s

/-- NOTIFY (R177): handed to the order walker and to the journal writer; the value written plays no part. -/
def execNotify (_value : Word32) (s : State) : Outcome :=
  if s.takesNotify then .next s.notifyWalker.notifyJournal.settle else .next s

/-- CAUSE_READ (R175, R180). -/
def execCauseRead (bytes : BitVec 4) (s : State) : Outcome := .next (s.readCause bytes)

/-- AREA_WRITE (R176). -/
def execAreaWrite (high : Bool) (value : Word32) (bytes : BitVec 4) (s : State) : Outcome := .next (s.writeArea high value bytes)

/-- REGISTER_WRITE_OTHER: ignored, with no mark anywhere (R170, R175, R177). -/
def execRegisterWriteOther (_reg : Fin 8) (_value : Word32) (_bytes : BitVec 4) (s : State) : Outcome := .next s

/-- DMA_ABORT of the granted request (R168). -/
def execDmaAbort (s : State) : Outcome :=
  match s.dma.granted with
  | some _ => .next s.linkAbort
  | none => .next s

end Sys2Proof.Machine
end

