-- ==== Sys2Proof/Machine/DrawerEvents.lean ====
section
/-! DEFINITION. The events of a drawer: its sensor, its kick, its ajar marks and its presence test (chapter 5). An expiry takes
effect when the timer is due, and a sensor change when the raw reading changes (log 2). -/

namespace Sys2Proof.Machine

/-- DRAWER_SENSOR_CHANGE (R78). -/
def execDrawerSensorChange (l : Lane) (isOpen : Bool) (s : State) : Outcome :=
  .next (s.modDrawer l (fun d => d.rawChange (s.lane l).settings.drawer isOpen))

/-- The settle timer expires (R78): the settled state takes the raw reading, and the condition machine the sensor event. -/
def State.settleSensor (s : State) (l : Lane) : State :=
  let isOpen := (s.lane l).drawer.rawOpen
  let s := s.modDrawer l (fun d => { d with settledOpen := isOpen, settle := none })
  if isOpen then s.sensorOpen l else s.sensorClosed l

/-- DRAWER_SENSOR_SETTLE_EXPIRY (R78, R81 to R83, R86). -/
def execDrawerSensorSettleExpiry (l : Lane) (s : State) : Outcome :=
  if isDue (s.lane l).drawer.settle then .next (s.settleSensor l).settle else .next s

/-- KICK_PULSE_END (R81). -/
def execKickPulseEnd (l : Lane) (s : State) : Outcome :=
  if isDue (s.lane l).drawer.pulse then .next (s.modDrawer l (fun d => { d with kickOut := false, pulse := none }))
  else .next s

/-- The confirm timer expires in KICKING (R81): JAMMED, with the TIMEOUT record, and JAMS counted. -/
def State.jam (s : State) (l : Lane) : State :=
  (s.drawerEvent l (fun d => { d.endKick with cond := .jammed }) .timeout (word (s.lane l).drawer.confirmTicks)).count l .jams

/-- CONFIRM_EXPIRY (R81). -/
def execConfirmExpiry (l : Lane) (s : State) : Outcome :=
  let d := (s.lane l).drawer
  if isDue d.confirm = true ∧ d.cond = .kicking then .next (s.jam l).settle else .next s

/-- The ajar alert mark in stage ALERT_PENDING (R85): an OPEN drawer becomes AJAR; the stage becomes FAULT_PENDING. -/
def State.alertMark (s : State) (l : Lane) : State :=
  let d := (s.lane l).drawer
  if d.cond = .isOpen then
    s.drawerEvent l (fun d => { d with cond := .ajar, stage := .faultPending, alert := none }) .ajar (word d.alertTicks)
  else s.modDrawer l (fun d => { d with stage := .faultPending, alert := none })

/-- AJAR_ALERT_MARK (R85). -/
def execAjarAlertMark (l : Lane) (s : State) : Outcome :=
  let d := (s.lane l).drawer
  if isDue d.alert = true ∧ d.stage = .alertPending then .next (s.alertMark l).settle else .next s

/-- AJAR_FAULT_MARK (R85): acted on in stage FAULT_PENDING, so after the alert mark when both are due. -/
def execAjarFaultMark (l : Lane) (s : State) : Outcome :=
  let d := (s.lane l).drawer
  if isDue d.faultMark = true ∧ d.stage = .faultPending then
    .next (s.drawerEvent l (fun d => { d with ajarFault := true, stage := .none, faultMark := none }) .ajarFault
      (word d.faultTicks)).settle
  else .next s

/-- PRESENCE_TIMER_EXPIRY (R87). -/
def execPresenceTimerExpiry (l : Lane) (s : State) : Outcome :=
  if isDue (s.lane l).drawer.presence then .next (s.modDrawer l Drawer.startMeasure) else .next s

/-- PRESENCE_MEASUREMENT_END (R78, R87 to R89). -/
def execPresenceMeasurementEnd (l : Lane) (followed : Bool) (s : State) : Outcome :=
  if isDue (s.lane l).drawer.measuring then
    .next ((s.modDrawer l (fun d => d.endMeasure (s.lane l).settings.drawer)).testResult l followed).settle
  else .next s

end Sys2Proof.Machine
end

