-- ==== Sys2Proof/Machine/LaneEvents.lean ====
section
/-! DEFINITION. The events of a lane: its idle timer, keylock, keyboard and scanner ports (chapters 1 to 4). An expiry takes
effect when the timer is due, and an input event when the input changes (log 2). -/

namespace Sys2Proof.Machine

/-! ## Lane state and keylock -/

/-- IDLE_TIMER_EXPIRY (R3, R4). -/
def execIdleTimerExpiry (l : Lane) (s : State) : Outcome :=
  let u := s.lane l
  if isDue u.idle = true ∧ u.laneState = .active ∧ s.inRun = true then .next (s.changeLane l .doze .idle false).settle
  else .next s

/-- KEYLOCK_VALID_READING (R13). -/
def execKeylockValidReading (l : Lane) (pos : Position) (s : State) : Outcome :=
  .next (s.modLane l (fun u => u.setContacts (contactsOf pos)))

/-- KEYLOCK_INVALID_READING (R14). -/
def execKeylockInvalidReading (l : Lane) (contacts : BitVec 4) (s : State) : Outcome :=
  .next (s.modLane l (fun u => u.setContacts contacts))

/-- KEYLOCK_SETTLE_EXPIRY (R13). -/
def execKeylockSettleExpiry (l : Lane) (s : State) : Outcome :=
  let k := (s.lane l).keylock
  if isDue k.settle then
    match k.candidate with
    | some pos => .next (s.adopt l pos false).settle
    | none => .next s
  else .next s

/-- The indeterminate timer expires (R14): it stops, and any position but LOCK gives way to LOCK. -/
def State.keylockIndeterminate (s : State) (l : Lane) : State :=
  let s := s.modKeylock l (fun k => { k with indet := none })
  if (s.lane l).keylock.position = .lock then s else s.adopt l .lock true

/-- KEYLOCK_INDETERMINATE_EXPIRY (R14). -/
def execKeylockIndeterminateExpiry (l : Lane) (s : State) : Outcome :=
  if isDue (s.lane l).keylock.indet then .next (s.keylockIndeterminate l).settle else .next s

/-! ## Keyboard -/

/-- PASS (R22). -/
def execPass (l : Lane) (raw : BitVec 128) (s : State) : Outcome :=
  let kb := (s.lane l).kb
  if kb.mode = .scanning ∧ isDue kb.passTimer = true then .next (s.runPass l raw).settle else .next s

/-- BASELINE_CAPTURE_END (R10; log 4). -/
def execBaselineCaptureEnd (l : Lane) (s : State) : Outcome :=
  let u := s.lane l
  if u.kb.capture = some 0 then
    .next ((s.modLane l LaneUnit.dropCapture).offer l (u.imageRecord .baseline)).settle
  else .next s

/-- TYPEMATIC_EXPIRY (R33, R34). -/
def execTypematicExpiry (l : Lane) (s : State) : Outcome :=
  match (s.lane l).kb.typematic with
  | some t => if t.left = 0 then .next (s.repeatKey l t.key).settle else .next s
  | none => .next s

/-- ANY_KEY_EXAMINATION (R35). -/
def execAnyKeyExamination (l : Lane) (active : Bool) (s : State) : Outcome :=
  let kb := (s.lane l).kb
  if kb.mode = .anyKey ∧ isDue kb.passTimer = true then .next (s.modLane l (fun u => u.examine active)) else .next s

/-- Any-key detection (R6, R7, R35): the lane wakes when it may; otherwise the stage returns to WAIT_CLEAR. -/
def State.detectKey (s : State) (l : Lane) : State :=
  let s' := s.wake l .key
  if (s'.lane l).kb.mode = .anyKey then s'.modKb l Keyboard.waitClear else s'

/-- ANY_KEY_DETECTION (R6, R35; log 4). -/
def execAnyKeyDetection (l : Lane) (s : State) : Outcome :=
  if (s.lane l).kb.detected then .next (s.detectKey l).settle else .next s

/-! ## Scanner ports -/

/-- CHARACTER_RECEIVED (R43). -/
def execCharacterReceived (l : Lane) (p : Port) (char : RxChar) (s : State) : Outcome :=
  if ((s.lane l).port p).hears then .next (s.receive l p char).settle else .next s

/-- GAP_TIMER_EXPIRY (R48, R49). -/
def execGapTimerExpiry (l : Lane) (p : Port) (s : State) : Outcome :=
  let q := (s.lane l).port p
  if isDue q.gap then
    match q.frame with
    | .assembling => .next (s.fragment l p).settle
    | .discarding => .next (s.modPort l p ScanPort.toWaiting)
    | .waiting => .next (s.modPort l p (fun q => { q with gap := none }))
  else .next s

/-- TONE_STEP_EXPIRY (R55). -/
def execToneStepExpiry (l : Lane) (p : Port) (s : State) : Outcome :=
  match ((s.lane l).port p).tone with
  | some t => if t.left = 0 then .next (s.modPort l p ScanPort.toneStep) else .next s
  | none => .next s

/-- RECEIVE_LINE_RETURNED_HIGH (R43): the receiver again takes start bits. -/
def execReceiveLineReturnedHigh (l : Lane) (p : Port) (s : State) : Outcome :=
  .next (s.modPort l p (fun q => { q with lineLow := false }))

end Sys2Proof.Machine
end

