-- ==== Sys2Proof/Machine/LoadCommands.lean ====
section
/-! DEFINITION. The completions of the settings unit's requests (chapter 9). A completion takes effect when the granted request
is the one it completes (log 2). -/

namespace Sys2Proof.Machine

/-- HOST_PART_READ_COMPLETE (R155 step 1, R171). -/
def execHostPartReadComplete (data : List Byte) (s : State) : Outcome :=
  match s.purpose with
  | some .hostPartRead => .next (s.complete.hostPart data).settle
  | _ => .next s

/-- LANE_SETTINGS_READ_COMPLETE (R155 steps 2 and 3). -/
def execLaneSettingsReadComplete (data : List Byte) (s : State) : Outcome :=
  match s.purpose with
  | some (.laneSettingsRead l) => .next (s.complete.laneRecord l data).settle
  | _ => .next s

/-- STATUS_WRITE_COMPLETE (R155 step 5, R164, R172). -/
def execStatusWriteComplete (s : State) : Outcome :=
  match s.purpose with
  | some .deviceStatusWrite => .next s.complete.statusWritten.settle
  | some (.laneStatusWrite _) => .next s.complete.statusWritten.settle
  | _ => .next s

/-- RELOAD_SETTINGS_READ_COMPLETE (R147 step 2, R160). -/
def execReloadSettingsReadComplete (data : List Byte) (s : State) : Outcome :=
  match s.purpose with
  | some (.reloadRead l) => .next (s.complete.reloadRead l data).settle
  | _ => .next s

/-- RELOAD_ECHO_WRITE_COMPLETE (R147 step 4, R160). -/
def execReloadEchoWriteComplete (s : State) : Outcome :=
  match s.purpose with
  | some (.reloadEcho _) => .next s.complete.echoWritten.settle
  | _ => .next s

end Sys2Proof.Machine
end

