-- ==== Sys2Proof/Machine/PageCommands.lean ====
section
/-! DEFINITION. The completions of the journal writer's requests, its timers, and the entry of a waiting MARK (chapters 6
and 7). A completion takes effect when the granted request is the one it completes, an expiry when the timer is due (log 2). -/

namespace Sys2Proof.Machine

/-- PAGE_LINK_READ_COMPLETE (R120). -/
def execPageLinkReadComplete (link : Word32) (s : State) : Outcome :=
  match s.purpose with
  | some .pageLinkRead => .next (s.complete.pageLink link).settle
  | _ => .next s

/-- PAGE_HEADER_READ_COMPLETE (R120). -/
def execPageHeaderReadComplete (state : Byte) (s : State) : Outcome :=
  match s.purpose with
  | some (.pageHeaderRead offset) => .next (s.complete.pageHeader offset state).settle
  | _ => .next s

/-- RECORD_WRITE_COMPLETE (R126). -/
def execRecordWriteComplete (s : State) : Outcome :=
  match s.purpose with
  | some .recordWrite => .next s.complete.recordWritten.settle
  | _ => .next s

/-- HEADER_BODY_WRITE_COMPLETE (R131). -/
def execHeaderBodyWriteComplete (s : State) : Outcome :=
  match s.purpose with
  | some .headerBodyWrite => .next s.complete.bodyWritten.settle
  | _ => .next s

/-- CLOSED_MARKER_WRITE_COMPLETE (R131). -/
def execClosedMarkerWriteComplete (s : State) : Outcome :=
  match s.purpose with
  | some .closedMarkerWrite => .next s.complete.pageClosed.settle
  | _ => .next s

/-- LINGER_EXPIRY (R128). -/
def execLingerExpiry (s : State) : Outcome := if isDue s.journal.linger then .next s.lingerExpired.settle else .next s

/-- JOURNAL_RECHECK_EXPIRY (R121). -/
def execJournalRecheckExpiry (s : State) : Outcome :=
  if isDue s.journal.recheck then .next s.journalRecheck.settle else .next s

/-- The answer to a JOURNAL_MARK (R150, chapter 11.3): the device record sequence and the time stamp of the MARK. -/
def markAnswer (seq : BitVec 16) (time : Word32) : Answer := accepted 0 (byte2 seq.toNat ++ [0, 0] ++ byte4 time)

/-- A MARK enters the staging queue and the walker is answered (R111, R150). -/
def State.enterMark (s : State) (tag : Word32) : State :=
  (s.stageDevice (.mark tag)).answer (markAnswer s.staging.devSeq s.run.clock)

/-- A MARK has its place: the fill is below 96 (R111), in RUNNING or STOPPING (R100); that it waits in every other
device state is log 41. -/
def State.markEnters (s : State) : Bool := decide (s.staging.queue.length < 96) && s.inRun

/-- MARK_ENTRY (R111): a waiting MARK enters once the fill is below 96, in RUNNING and STOPPING (R100). -/
def execMarkEntry (s : State) : Outcome :=
  match s.staging.markWaiting with
  | some tag =>
    if s.markEnters then .next ({ s with staging.markWaiting := none }.enterMark tag).settle else .next s
  | none => .next s

end Sys2Proof.Machine
end

