-- ==== Sys2Proof/Machine/Orders.lean ====
section
/-! DEFINITION. The twelve orders as their owners take them (chapters 1, 3, 5 to 9). An order takes effect when the walker has
handed exactly that order on (log 3); its owner answers the walker in the same event or leaves it WAITING (R143). -/

namespace Sys2Proof.Machine

/-- The order `o` is taken when the walker has handed it on. -/
def State.taking (s : State) (o : Order) (f : State → State) : Outcome :=
  if s.walker.handed = some o then .next (f s).settle else .next s

/-! ## Orders to the drawer -/

/-- DRAWER_KICK at the drawer controller (R80, R90, R145). -/
def State.takeKick (s : State) (l : Lane) : State :=
  let u := s.lane l
  let c := u.settings.drawer
  match u.kickRefusal with
  | some (code, detail) => s.answer (refusal code detail)
  | none =>
    ((s.drawerEvent l (fun d => d.kick c s.run.clock) .order (word (msTicks c.kickMs))).count l .kicks).answer
      (accepted u.drawer.cond.code (byte4 (word (msTicks c.kickMs)) ++ byte4 (word (msTicks c.confirmMs))))

/-- DRAWER_KICK (R90). -/
def execDrawerKick (l : Lane) (s : State) : Outcome := s.taking (.drawerKick l) (fun s => s.takeKick l)

/-- The latch set by order: a kick in progress ends with the drawer CLOSED (R92). -/
def Drawer.lockOut (d : Drawer) : Drawer :=
  if d.cond = .kicking then { d.endKick with cond := .closed, latch := true } else { d with latch := true }

/-- DRAWER_LOCKOUT at the drawer controller (R92, R145). -/
def State.takeLockout (s : State) (l : Lane) : State :=
  let d := (s.lane l).drawer
  if d.latch then s.answer (accepted 1 (byte1 d.cond.code))
  else (s.drawerEvent l Drawer.lockOut .order 0).answer (accepted 0 (byte1 d.lockOut.cond.code))

/-- DRAWER_LOCKOUT (R92). -/
def execDrawerLockout (l : Lane) (s : State) : Outcome := s.taking (.drawerLockout l) (fun s => s.takeLockout l)

/-- DRAWER_RELEASE at the drawer controller (R93, R145). -/
def State.takeRelease (s : State) (l : Lane) : State :=
  let u := s.lane l
  let d := u.drawer
  match u.keylock.position with
  | .lock | .register => s.answer (refusal .keylock (positionCode u.keylock.position))
  | .manager | .service =>
    let a := accepted (d.latch.toNat + 256 * d.history.length) (byte1 d.cond.code)
    if d.latch = true ∨ d.history ≠ [] then
      (s.drawerEvent l (fun d => { d with latch := false, history := [] }) .release (word d.history.length)).answer a
    else s.answer a

/-- DRAWER_RELEASE (R93). -/
def execDrawerRelease (l : Lane) (s : State) : Outcome := s.taking (.drawerRelease l) (fun s => s.takeRelease l)

/-! ## Orders to a scanner port -/

/-- SCANNER_SET at the named port (R54, R145): clearing the flag cuts a frame in ASSEMBLING (R50) and stops a pattern (R55). -/
def State.takeScannerSet (s : State) (l : Lane) (p : Port) (enable : Bool) : State :=
  let u := s.lane l
  let a := accepted (u.port p).orderEnable.toNat []
  if enable then
    if (u.portSettings p).enable then (s.modPort l p (fun q => { q with orderEnable := true })).answer a
    else s.answer (refusal .portOff 0)
  else
    (((s.modPort l p (fun q => { q with orderEnable := false })).cutFrame l p).modPort l p ScanPort.stopTone).answer a

/-- SCANNER_SET (R54). -/
def execScannerSet (l : Lane) (p : Port) (enable : Bool) (s : State) : Outcome :=
  s.taking (.scannerSet l p enable) (fun s => s.takeScannerSet l p enable)

/-- SCAN_CONFIRM at the named port (R57, R145). -/
def State.takeScanConfirm (s : State) (l : Lane) (p : Port) (bad : Bool) : State :=
  let u := s.lane l
  let c := u.portSettings p
  if u.laneState = .off ∨ u.laneState = .disabled then s.answer (refusal .laneOff (laneStateCode u.laneState))
  else if c.enable = false ∨ (u.port p).orderEnable = false then s.answer (refusal .portOff 0)
  else
    (s.modPort l p (fun q => q.startTone c bad)).answer
      (accepted (u.port p).tone.isSome.toNat (byte4 (word (msTicks c.toneMs))))

/-- SCAN_CONFIRM (R57). -/
def execScanConfirm (l : Lane) (p : Port) (bad : Bool) (s : State) : Outcome :=
  s.taking (.scanConfirm l p bad) (fun s => s.takeScanConfirm l p bad)

/-! ## Orders to the keyboard scanner, the settings unit, lane state control and the counters -/

/-- KEY_IMAGE_READ at the keyboard scanner (R39, R146): the record and the result carry the same image. -/
def State.takeKeyImageRead (s : State) (l : Lane) : State :=
  let u := s.lane l
  (s.offer l (u.imageRecord .read)).answer
    (accepted u.kb.image.length
      (maskBytes 16 (keyBitmap u.kb.image) ++ byte1 u.kb.image.length ++ byte1 u.kb.blocked.length))

/-- KEY_IMAGE_READ (R146). -/
def execKeyImageRead (l : Lane) (s : State) : Outcome := s.taking (.keyImageRead l) (fun s => s.takeKeyImageRead l)

/-- LANE_RELOAD at the settings unit (R147 step 1, R160): the reload in hand; the walker waits. -/
def State.takeLaneReload (s : State) (l : Lane) : State := { s with unit.reload := some (.read l) }.wait

/-- LANE_RELOAD (R147). -/
def execLaneReload (l : Lane) (s : State) : Outcome := s.taking (.laneReload l) (fun s => s.takeLaneReload l)

/-- LANE_STATE at lane state control (R8, R145). -/
def State.takeLaneState (s : State) (l : Lane) (target : Target) : State :=
  let old := (s.lane l).laneState
  let new := targetState target
  if old = .disabled then s.answer (refusal .laneOff (laneStateCode .disabled))
  else if old = new then s.answer (accepted (laneStateCode old) [])
  else
    (s.changeLane l new .order (old == .off && new == .active)).answer (accepted (laneStateCode old) [])

/-- LANE_STATE (R8). -/
def execLaneState (l : Lane) (target : Target) (s : State) : Outcome :=
  s.taking (.laneState l target) (fun s => s.takeLaneState l target)

/-- The eight counters as COUNTERS_READ returns them: 2 bytes each, in counter order (R148, chapter 11.3). -/
def counterBytes (counters : Vector (BitVec 16) 8) : List Byte := counters.toList.flatMap fun c => byte2 c.toNat

/-- The counters set to 0 and their high-noted flags cleared; a change of a flag is to be rewritten (R148, R162, R166). -/
def LaneUnit.clearCounters (u : LaneUnit) : LaneUnit :=
  { u with counters := Vector.replicate 8 0, noted := 0, rewrite := u.rewrite || u.noted != 0 }

/-- COUNTERS_READ at the lane counters (R148). -/
def State.takeCountersRead (s : State) (l : Lane) (clear : Bool) : State :=
  let u := s.lane l
  (if clear then s.modLane l LaneUnit.clearCounters else s).answer (accepted u.noted.toNat (counterBytes u.counters))

/-- COUNTERS_READ (R148). -/
def execCountersRead (l : Lane) (clear : Bool) (s : State) : Outcome :=
  s.taking (.countersRead l clear) (fun s => s.takeCountersRead l clear)

/-- POLICY_LOCK at the settings unit (R151): setting the lock is to be rewritten (R163). -/
def State.takePolicyLock (s : State) : State :=
  { s with unit.policyLock := true, unit.devRewrite := s.unit.devRewrite || !s.unit.policyLock }.answer
    (accepted s.unit.policyLock.toNat [])

/-- POLICY_LOCK (R151). -/
def execPolicyLock (s : State) : Outcome := s.taking .policyLock State.takePolicyLock

/-! ## Orders to the journal writer -/

/-- FLUSH at the journal writer (R130, R149): the flush point, with the walker WAITING, or the answer at once when there is
nothing to flush. -/
def State.takeFlush (s : State) : State :=
  match s.staging.queue, s.journal.page with
  | _ :: rest, _ => { s with journal.flush := .record rest.length }.wait
  | [], some page =>
    if page.closing.isSome then { s with journal.flush := .page }.wait
    else if page.count = 0 then s.answer (accepted 0 [])
    else ({ s with journal.flush := .page }.beginClose page .flush).wait
  | [], none => s.answer (accepted 0 [])

/-- FLUSH (R130). -/
def execFlush (s : State) : Outcome := s.taking .flush State.takeFlush

/-- JOURNAL_MARK at the journal writer (R111, R150): the MARK enters when the fill is below 96 and the device state produces it
(R100), and otherwise waits. -/
def State.takeJournalMark (s : State) (tag : Word32) : State :=
  if s.markEnters then s.enterMark tag else { s with staging.markWaiting := some tag }.wait

/-- JOURNAL_MARK (R150). -/
def execJournalMark (tag : Word32) (s : State) : Outcome := s.taking (.journalMark tag) (fun s => s.takeJournalMark tag)

end Sys2Proof.Machine
end

