-- ==== Sys2Proof/Machine/SlipCommands.lean ====
section
/-! DEFINITION. The completions of the order walker's requests and its timer (chapter 8). A completion takes effect when the
granted request is the one it completes, an expiry when the timer is due (log 2). -/

namespace Sys2Proof.Machine

/-- ORDER_LINK_READ_COMPLETE (R138). -/
def execOrderLinkReadComplete (link : Word32) (s : State) : Outcome :=
  match s.purpose with
  | some .orderLinkRead => .next (s.complete.orderLink link).settle
  | _ => .next s

/-- SLIP_READ_COMPLETE (R138). -/
def execSlipReadComplete (data : List Byte) (s : State) : Outcome :=
  match s.purpose with
  | some (.slipRead offset) => .next (s.complete.slipRead offset data).settle
  | _ => .next s

/-- TAKEN_WRITE_COMPLETE (R143 step 2, R144). -/
def execTakenWriteComplete (s : State) : Outcome :=
  match s.purpose with
  | some .takenWrite => .next s.complete.takenWritten.settle
  | _ => .next s

/-- SLIP_BODY_WRITE_COMPLETE (R143 step 4). -/
def execSlipBodyWriteComplete (s : State) : Outcome :=
  match s.purpose with
  | some .slipBodyWrite => .next s.complete.slipBodyWritten.settle
  | _ => .next s

/-- SLIP_STATE_WRITE_COMPLETE (R143). -/
def execSlipStateWriteComplete (s : State) : Outcome :=
  match s.purpose with
  | some .slipStateWrite => .next s.complete.slipFinished.settle
  | _ => .next s

/-- WALKER_RECHECK_EXPIRY (R139). -/
def execWalkerRecheckExpiry (s : State) : Outcome :=
  if isDue s.walker.recheck then .next s.walkerRecheck.settle else .next s

end Sys2Proof.Machine
end

