-- ==== Sys2Proof/Machine/Dispatch.lean ====
section
/-! DEFINITION. Every command and its meaning: one arm for each constructor of `Instr`. -/

namespace Sys2Proof.Machine

def exec (i : Instr) (s : State) : Host.Outcome State Fault Refusal :=
  match i with
  | .powerOnReset => Sys2Proof.Machine.execPowerOnReset s
  | .linkReset => Sys2Proof.Machine.execLinkReset s
  | .run => Sys2Proof.Machine.execRun s
  | .halt => Sys2Proof.Machine.execHalt s
  | .reset => Sys2Proof.Machine.execReset s
  | .reheadOrders => Sys2Proof.Machine.execReheadOrders s
  | .reheadPages => Sys2Proof.Machine.execReheadPages s
  | .notify value => Sys2Proof.Machine.execNotify value s
  | .causeRead bytes => Sys2Proof.Machine.execCauseRead bytes s
  | .areaWrite high value bytes => Sys2Proof.Machine.execAreaWrite high value bytes s
  | .registerWriteOther reg value bytes => Sys2Proof.Machine.execRegisterWriteOther reg value bytes s
  | .dmaAbort => Sys2Proof.Machine.execDmaAbort s
  | .hostPartReadComplete data => Sys2Proof.Machine.execHostPartReadComplete data s
  | .laneSettingsReadComplete data => Sys2Proof.Machine.execLaneSettingsReadComplete data s
  | .statusWriteComplete => Sys2Proof.Machine.execStatusWriteComplete s
  | .reloadSettingsReadComplete data => Sys2Proof.Machine.execReloadSettingsReadComplete data s
  | .reloadEchoWriteComplete => Sys2Proof.Machine.execReloadEchoWriteComplete s
  | .pageLinkReadComplete link => Sys2Proof.Machine.execPageLinkReadComplete link s
  | .pageHeaderReadComplete state => Sys2Proof.Machine.execPageHeaderReadComplete state s
  | .recordWriteComplete => Sys2Proof.Machine.execRecordWriteComplete s
  | .headerBodyWriteComplete => Sys2Proof.Machine.execHeaderBodyWriteComplete s
  | .closedMarkerWriteComplete => Sys2Proof.Machine.execClosedMarkerWriteComplete s
  | .lingerExpiry => Sys2Proof.Machine.execLingerExpiry s
  | .journalRecheckExpiry => Sys2Proof.Machine.execJournalRecheckExpiry s
  | .orderLinkReadComplete link => Sys2Proof.Machine.execOrderLinkReadComplete link s
  | .slipReadComplete data => Sys2Proof.Machine.execSlipReadComplete data s
  | .takenWriteComplete => Sys2Proof.Machine.execTakenWriteComplete s
  | .slipBodyWriteComplete => Sys2Proof.Machine.execSlipBodyWriteComplete s
  | .slipStateWriteComplete => Sys2Proof.Machine.execSlipStateWriteComplete s
  | .walkerRecheckExpiry => Sys2Proof.Machine.execWalkerRecheckExpiry s
  | .drawerKick lane => Sys2Proof.Machine.execDrawerKick lane s
  | .drawerLockout lane => Sys2Proof.Machine.execDrawerLockout lane s
  | .drawerRelease lane => Sys2Proof.Machine.execDrawerRelease lane s
  | .scannerSet lane port enable => Sys2Proof.Machine.execScannerSet lane port enable s
  | .scanConfirm lane port bad => Sys2Proof.Machine.execScanConfirm lane port bad s
  | .keyImageRead lane => Sys2Proof.Machine.execKeyImageRead lane s
  | .laneReload lane => Sys2Proof.Machine.execLaneReload lane s
  | .laneState lane target => Sys2Proof.Machine.execLaneState lane target s
  | .countersRead lane clear => Sys2Proof.Machine.execCountersRead lane clear s
  | .flush => Sys2Proof.Machine.execFlush s
  | .policyLock => Sys2Proof.Machine.execPolicyLock s
  | .journalMark tag => Sys2Proof.Machine.execJournalMark tag s
  | .markEntry => Sys2Proof.Machine.execMarkEntry s
  | .idleTimerExpiry lane => Sys2Proof.Machine.execIdleTimerExpiry lane s
  | .keylockValidReading lane pos => Sys2Proof.Machine.execKeylockValidReading lane pos s
  | .keylockInvalidReading lane contacts => Sys2Proof.Machine.execKeylockInvalidReading lane contacts s
  | .keylockSettleExpiry lane => Sys2Proof.Machine.execKeylockSettleExpiry lane s
  | .keylockIndeterminateExpiry lane => Sys2Proof.Machine.execKeylockIndeterminateExpiry lane s
  | .pass lane raw => Sys2Proof.Machine.execPass lane raw s
  | .baselineCaptureEnd lane => Sys2Proof.Machine.execBaselineCaptureEnd lane s
  | .typematicExpiry lane => Sys2Proof.Machine.execTypematicExpiry lane s
  | .anyKeyExamination lane active => Sys2Proof.Machine.execAnyKeyExamination lane active s
  | .anyKeyDetection lane => Sys2Proof.Machine.execAnyKeyDetection lane s
  | .characterReceived lane port char => Sys2Proof.Machine.execCharacterReceived lane port char s
  | .gapTimerExpiry lane port => Sys2Proof.Machine.execGapTimerExpiry lane port s
  | .toneStepExpiry lane port => Sys2Proof.Machine.execToneStepExpiry lane port s
  | .drawerSensorChange lane isOpen => Sys2Proof.Machine.execDrawerSensorChange lane isOpen s
  | .drawerSensorSettleExpiry lane => Sys2Proof.Machine.execDrawerSensorSettleExpiry lane s
  | .kickPulseEnd lane => Sys2Proof.Machine.execKickPulseEnd lane s
  | .confirmExpiry lane => Sys2Proof.Machine.execConfirmExpiry lane s
  | .ajarAlertMark lane => Sys2Proof.Machine.execAjarAlertMark lane s
  | .ajarFaultMark lane => Sys2Proof.Machine.execAjarFaultMark lane s
  | .presenceTimerExpiry lane => Sys2Proof.Machine.execPresenceTimerExpiry lane s
  | .presenceMeasurementEnd lane followed => Sys2Proof.Machine.execPresenceMeasurementEnd lane followed s
  | .receiveLineReturnedHigh lane port => Sys2Proof.Machine.execReceiveLineReturnedHigh lane port s

end Sys2Proof.Machine
end

