-- ==== Sys2Proof/Machine/Tick.lean ====
section
/-! DEFINITION. One tick of the device clock (R174): the clock and every timer that runs. The table has no row for it; a step on
an empty queue is one tick (log 1). -/

namespace Sys2Proof.Machine

/-- The keylock reader's timers (R13, R14). -/
def Keylock.tick (k : Keylock) : Keylock := { k with settle := tickTimer k.settle, indet := tickTimer k.indet }

/-- The keyboard scanner's timers (R22, R33, R35). -/
def Keyboard.tick (kb : Keyboard) : Keyboard :=
  { kb with passTimer := tickTimer kb.passTimer, typematic := kb.typematic.map fun t => { t with left := t.left - 1 } }

/-- A port's gap timer and tone step (R46, R55). -/
def ScanPort.tick (q : ScanPort) : ScanPort :=
  { q with gap := tickTimer q.gap, tone := q.tone.map fun t => { t with left := t.left - 1 } }

/-- The drawer controller's timers (R78, R80, R85, R87). -/
def Drawer.tick (d : Drawer) : Drawer :=
  { d with pulse := tickTimer d.pulse, confirm := tickTimer d.confirm, settle := tickTimer d.settle, alert := tickTimer d.alert,
           faultMark := tickTimer d.faultMark, presence := tickTimer d.presence, measuring := tickTimer d.measuring }

/-- A lane's timers; the idle timer counts while the lane is ACTIVE and the device RUNNING or STOPPING (R3, R4). -/
def LaneUnit.tick (u : LaneUnit) (inRun : Bool) : LaneUnit :=
  { u with
    idle := if inRun && u.laneState == .active then tickTimer u.idle else u.idle
    keylock := u.keylock.tick
    kb := u.kb.tick
    portA := u.portA.tick
    portB := u.portB.tick
    drawer := u.drawer.tick }

/-- One tick (R174): the clock counts in every device state, and every timer counts the same ticks. -/
def State.tick (s : State) : State :=
  { s with
    run.clock := s.run.clock + 1
    lanes := s.lanes.map (fun u => u.tick s.inRun)
    journal := { s.journal with linger := tickTimer s.journal.linger, recheck := tickTimer s.journal.recheck }
    walker.recheck := tickTimer s.walker.recheck }

end Sys2Proof.Machine
end

