-- ==== Sys2Proof/Machine/Step.lean ====
section
/-! DEFINITION. One step of the WL804: the command at the front of the queue, or one tick when no command waits. -/

namespace Sys2Proof.Machine

/-- One step: the command at the front of the queue takes effect with the rest of the queue left waiting; with no command
waiting, one tick of the device clock passes (R174, log 1). The queue stands for every sender, in any order (log 32). -/
def step (s : State) : Host.Outcome State Fault Refusal :=
  match s.pending with
  | [] => .next s.tick
  | c :: rest => exec c { s with pending := rest }

/-- The command that a table word spells, at the front of the queue; the table gives no bits, so no word spells one (log 29). -/
def State.withFetchWord (s : State) (nbits w : Nat) : State :=
  match Sys2Proof.decodeTableWord nbits w with
  | some c => { s with pending := c :: s.pending }
  | none => s

end Sys2Proof.Machine
end

