-- ==== Sys2Proof/Safety.lean ====
section
/-! DEFINITION. What claims about the WL804 say: what an event of a lane leaves as it is, what the end of an event leaves as it
is, and the invariants that every step keeps. -/

namespace Sys2Proof.Machine

/-! ## The sequences of waiting records (R103) -/

/-- The records `rs` carry consecutive sequences modulo 2^16, the last of them one below `next`. -/
def NumberedBelow (rs : List StagedRecord) (next : BitVec 16) : Prop :=
  ∀ (i : Nat) (r : StagedRecord), rs[i]? = some r → r.seq = next - BitVec.ofNat 16 (rs.length - i)

/-- The records `bs` of lane `l` as they enter the queue at the time `now`: under consecutive sequences from `seq` (R103). -/
def stamped (l : Lane) (now : Word32) (seq : BitVec 16) (bs : List RecordBody) : List StagedRecord :=
  bs.mapIdx fun i b => ⟨b, some l, now, seq + BitVec.ofNat 16 i⟩

/-- The staged records of one lane, and those of lane 0xFF, carry consecutive record sequences that end one below the lane's next one,
and the device's (R103). -/
def State.seqOk (s : State) : Prop :=
  (∀ l, NumberedBelow (s.staging.queue.filter fun r => decide (r.lane = some l)) (s.lane l).seq) ∧
    NumberedBelow (s.staging.queue.filter fun r => decide (r.lane = none)) s.staging.devSeq

/-! ## Frames -/

/-- Lane `l` alone. -/
def only (l : Lane) : Lane → Prop := fun m => m = l

/-- From `s` to `t` only the lanes that `on` names have moved, and only in what their events change: no block but these lanes'
units, the pending causes and the staging queue is touched, no setting, store or load flag of any lane; causes are only added
(R178), records of those lanes only appended under their lanes' sequences (R101, R103), in RUNNING and STOPPING alone (R100), and flow hold only set (R105). -/
structure LaneFrame (on : Lane → Prop) (s t : State) : Prop where
  pending : t.pending = s.pending
  run : t.run = { s.run with causes := t.run.causes }
  causes : t.run.causes ||| s.run.causes = t.run.causes
  others : ∀ m, ¬on m → t.lane m = s.lane m
  settings : ∀ m, (t.lane m).configured = (s.lane m).configured ∧ (t.lane m).settings = (s.lane m).settings ∧
    (t.lane m).clamped = (s.lane m).clamped ∧ (t.lane m).held = (s.lane m).held ∧ (t.lane m).store = (s.lane m).store
  staging : t.staging = { s.staging with queue := t.staging.queue, hold := t.staging.hold }
  records : ∃ rs, t.staging.queue = s.staging.queue ++ rs ∧ ∀ r ∈ rs, ∃ m, on m ∧ r.lane = some m
  produced : s.inRun = false → t.staging.queue = s.staging.queue
  fill : s.staging.queue.length ≤ 96 → t.staging.queue.length ≤ 96
  numbered : s.seqOk → t.seqOk
  hold : s.staging.hold = true → t.staging.hold = true
  journal : t.journal = s.journal
  walker : t.walker = s.walker
  unit : t.unit = s.unit
  dma : t.dma = s.dma
  hostMem : t.hostMem = s.hostMem
  causeReadData : t.causeReadData = s.causeReadData
  freeUsed : t.freeUsed = s.freeUsed

/-- What the end of an event leaves as it is: it begins a close, requests and grants DMA, clears rewrite-pending flags, and at
the end of the drain it halts the journal writer and makes the device STOPPED (R126, R133, R164, R167). -/
structure SettleFrame (s t : State) : Prop where
  pending : t.pending = s.pending
  run : t.run = s.run ∨ (s.drained = true ∧ t.run = { s.run with device := .stopped, journalDone := true })
  lanes : ∀ m, t.lane m = { s.lane m with
    rewrite := (t.lane m).rewrite
    kb := { (s.lane m).kb with capture := (t.lane m).kb.capture } }
  captures : t.run.device = s.run.device → ∀ m, (t.lane m).kb.capture = (s.lane m).kb.capture
  staging : t.staging = s.staging
  journal : t.journal.fromAnchor = s.journal.fromAnchor ∧ t.journal.lastClosed = s.journal.lastClosed ∧
    t.journal.pageSeq = s.journal.pageSeq ∧ t.journal.journalSeq = s.journal.journalSeq ∧
    t.journal.unannounced = s.journal.unannounced ∧ t.journal.stale = s.journal.stale ∧ t.journal.flush = s.journal.flush
  stays : s.journal.state ≠ .filling → (s.drained = true → s.journal.state ≠ .starved ∧ s.journal.state ≠ .broken) →
    t.journal = s.journal
  filling : s.drained = false → s.journal.state = .filling → t.journal.state = .filling
  page : s.drained = false → ∀ p, s.journal.page = some p →
    ∃ q, t.journal.page = some q ∧ q = { p with closing := q.closing, closeTime := q.closeTime, lingerDue := q.lingerDue }
  walker : t.walker = s.walker
  unit : t.unit = { s.unit with devRewrite := t.unit.devRewrite, load := t.unit.load }
  hostMem : t.hostMem = s.hostMem
  causeReadData : t.causeReadData = s.causeReadData
  freeUsed : t.freeUsed = s.freeUsed

/-- The lane that an event of a lane names. The twelve orders are not among them: they also answer the walker. -/
def laneOf : Instr → Option Lane
  | .idleTimerExpiry l | .keylockValidReading l _ | .keylockInvalidReading l _ | .keylockSettleExpiry l
  | .keylockIndeterminateExpiry l | .pass l _ | .baselineCaptureEnd l | .typematicExpiry l | .anyKeyExamination l _
  | .anyKeyDetection l | .characterReceived l _ _ | .gapTimerExpiry l _ | .toneStepExpiry l _ | .receiveLineReturnedHigh l _
  | .drawerSensorChange l _ | .drawerSensorSettleExpiry l | .kickPulseEnd l | .confirmExpiry l | .ajarAlertMark l
  | .ajarFaultMark l | .presenceTimerExpiry l | .presenceMeasurementEnd l _ => some l
  | .powerOnReset | .linkReset | .run | .halt | .reset | .reheadOrders | .reheadPages | .notify _ | .causeRead _
  | .areaWrite .. | .registerWriteOther .. | .dmaAbort | .hostPartReadComplete _ | .laneSettingsReadComplete _
  | .statusWriteComplete | .reloadSettingsReadComplete _ | .reloadEchoWriteComplete | .pageLinkReadComplete _
  | .pageHeaderReadComplete _ | .recordWriteComplete | .headerBodyWriteComplete | .closedMarkerWriteComplete | .lingerExpiry
  | .journalRecheckExpiry | .orderLinkReadComplete _ | .slipReadComplete _ | .takenWriteComplete | .slipBodyWriteComplete
  | .slipStateWriteComplete | .walkerRecheckExpiry | .drawerKick _ | .drawerLockout _ | .drawerRelease _ | .scannerSet ..
  | .scanConfirm .. | .keyImageRead _ | .laneReload _ | .laneState .. | .countersRead .. | .flush | .policyLock
  | .journalMark _ | .markEntry => none

/-- The command is one of the three resets (R182). -/
def isReset : Instr → Bool
  | .powerOnReset | .linkReset | .reset => true
  | _ => false

/-! ## Requests and writes -/

/-- `w` asks for the engine with the request `r`: it waits, or it is the granted one (R167). -/
def State.asks (s : State) (w : Requester) (r : Request) : Prop :=
  s.dma.waitingOf w = some r ∨ ∃ g, s.dma.granted = some g ∧ g.who = w ∧ g.req = r

/-- The completion command `c` completes a request of purpose `p`: one command for each kind of request. -/
def completes (c : Instr) (p : Purpose) : Prop :=
  match c, p with
  | .hostPartReadComplete _, .hostPartRead | .laneSettingsReadComplete _, .laneSettingsRead _
  | .statusWriteComplete, .deviceStatusWrite | .statusWriteComplete, .laneStatusWrite _
  | .reloadSettingsReadComplete _, .reloadRead _ | .reloadEchoWriteComplete, .reloadEcho _
  | .pageLinkReadComplete _, .pageLinkRead | .pageHeaderReadComplete _, .pageHeaderRead _
  | .recordWriteComplete, .recordWrite | .headerBodyWriteComplete, .headerBodyWrite
  | .closedMarkerWriteComplete, .closedMarkerWrite | .orderLinkReadComplete _, .orderLinkRead
  | .slipReadComplete _, .slipRead _ | .takenWriteComplete, .takenWrite | .slipBodyWriteComplete, .slipBodyWrite
  | .slipStateWriteComplete, .slipStateWrite => True
  | _, _ => False

/-- From `s` to `t` the bytes of the write `g` have been stored, and no other byte of memory has changed. -/
def Stored (s t : State) (g : Grant) : Prop :=
  (∀ i b, g.req.data[i]? = some b → t.memByte (g.address + i) = some b) ∧
    ∀ a, ¬(g.address ≤ a ∧ a < g.address + g.req.data.length) → t.memByte a = s.memByte a

/-- From `s` to `t` the request in flight, if any, has ended without completing: each byte of a write is the new one or the one
before (R134, R153), and no other byte of memory has changed. -/
def Abandoned (s t : State) : Prop :=
  match s.dma.granted with
  | none => t.hostMem = s.hostMem
  | some g =>
    (∀ i b, g.req.data[i]? = some b →
      t.memByte (g.address + i) = some b ∨ t.memByte (g.address + i) = s.memByte (g.address + i)) ∧
      ∀ a, ¬(g.address ≤ a ∧ a < g.address + g.req.data.length) → t.memByte a = s.memByte a

/-- `r` asks for the header body of `page`, closed for `why` at the time `now` under the page sequence `seq`: one write of bytes 0x01 to
0x1B of the header, so that byte `i` of the data is byte `i + 1` of the header (R131, R186, chapter 11.4). -/
def HeaderBody (page : OpenPage) (why : CloseReason) (seq now : Word32) (r : Request) : Prop :=
  r.purpose = .headerBodyWrite ∧ r.offset = page.offset + 1 ∧ r.length = 27 ∧ r.data.length = 27 ∧
  field1 r.data 0 = (match why with | .full => 1 | .linger => 2 | .urgent => 3 | .flush => 4 | .stop => 5) ∧
  byteAt r.data 1 = page.lanes ∧ byteAt r.data 2 = BitVec.ofNat 8 page.count ∧ field4 r.data 3 = seq ∧
  (∀ n, page.firstSeq = some n → field4 r.data 7 = n) ∧ field2 r.data 11 = page.used % 65536 ∧ field2 r.data 13 = 0 ∧
  field4 r.data 15 = page.openTime ∧ field4 r.data 19 = now ∧ field4 r.data 23 = 0

/-- The drain of STOPPING has come to its end (R133): the walker has reported, no record waits, and no loss is pending. -/
def State.drainEnds (s : State) : Prop :=
  s.run.device = .stopping ∧ s.run.walkerDone = true ∧ s.staging.queue = [] ∧ ∀ (l : Lane) (i : Fin 4), (s.lane l).losses[i] = 0

/-! ## Settings that reach a lane (R36 to R38, R58, R77, R87, R89, R94, R95) -/

/-- A port after new settings `c` have reached it in the lane state `st` (R42, R55, R58): its receiver is restarted in DISCARDING, or OFF
and WAITING, with an empty frame either way, and a pattern goes on only at an enabled port of an ACTIVE or dozing lane. -/
def portAfter (q : ScanPort) (c : PortSettings) (configured : Bool) (st : LaneState) : ScanPort :=
  let works := c.enable && decide (st = .active ∨ st = .doze)
  { q with
    on := configured && works
    frame := if configured && works then .discarding else .waiting
    gap := if configured && works then some (msTicks c.gapMs) else none
    mark := none
    text := []
    damaged := false
    tooLong := false
    toneOn := works && q.toneOn
    tone := if works then q.tone else none }

/-- A drawer that has just been found open (R77, R85, R89): OPEN, with the ajar timing started at `now`. -/
def drawerOpened (d : Drawer) (c : DrawerSettings) (now : Word32) : Drawer :=
  { d with
    cond := .isOpen
    openedAt := now
    stage := .alertPending
    alert := some (secTicks c.alertS)
    faultMark := some (secTicks c.faultS)
    alertTicks := secTicks c.alertS
    faultTicks := secTicks c.faultS }

/-- A drawer after new settings `c` have reached it at the time `now`, its controller being to run or not (R77, R87, R89, R94, R95): a
controller that starts takes the sensor as settled, one that stops keeps its condition but for KICKING, and one that goes on changes
only its presence test, whose interval of 0 ends ABSENT. An abandoned measurement compares the sensor (log 25). -/
def drawerAfter (d : Drawer) (c : DrawerSettings) (runs : Bool) (now : Word32) : Drawer :=
  match d.running, runs with
  | false, false => d
  | false, true =>
    let e := { d with
      running := true, settledOpen := d.rawOpen, failCount := 0, kickOut := false, pulse := none, confirm := none
      presence := if c.presenceS = 0 then none else some (secTicks c.presenceS) }
    if d.rawOpen then drawerOpened e c now else { e with cond := .closed }
  | true, false =>
    { d with
      running := false, cond := if d.cond = .kicking then .closed else d.cond, failCount := 0, stage := .none
      kickOut := false, pulse := none, confirm := none, settle := none, alert := none, faultMark := none
      presence := none, measuring := none }
  | true, true =>
    let e := { d with
      measuring := if c.presenceS = 0 then none else d.measuring
      settle := if c.presenceS = 0 ∧ d.measuring ≠ none then
          (if d.rawOpen = d.settledOpen then none else some (msTicks c.settleMs))
        else d.settle
      presence := if c.presenceS = 0 then none
        else if d.measuring = none ∧ d.presence = none then some (secTicks c.presenceS) else d.presence }
    if c.presenceS = 0 ∧ d.cond = .absent then
      (if d.settledOpen then { drawerOpened e c now with failCount := 0 }
      else { e with cond := .closed, ajarFault := false, failCount := 0 })
    else e

/-- The keylock reader after new settings have reached its lane (R12): one that starts takes the contacts as a new reading (R13, R14),
one that stops clears the candidate and both timers, and one that goes on or stays stopped is as it was. -/
def keylockAfter (k : Keylock) (settleMs : Nat) (runs : Bool) : Keylock :=
  match k.running, runs with
  | false, true =>
    match positionOf k.contacts with
    | some pos =>
      if pos = k.position then { k with running := true, candidate := none, settle := none, indet := none }
      else { k with running := true, candidate := some pos, settle := some (msTicks settleMs), indet := none }
    | none => { k with running := true, candidate := none, settle := none, indet := some (k.indet.getD 1024) }
  | true, false => { k with running := false, candidate := none, settle := none, indet := none }
  | _, _ => k

/-- From the keyboard `kb` to `kb'` the settings `new` have replaced `old` at a scanner that goes on SCANNING (R36, R37): keys outside the
used matrix are gone, the newest keys over the rollover limit are blocked behind the others, a new D clears every change count, and a
sequence goes on only for a key that is still in the image with its repeat flag set. -/
def KeysRefitted (kb kb' : Keyboard) (old new : LaneSettings) : Prop :=
  let inside := kb.image.filter fun k => new.usesKey k
  kb' = { kb with counts := kb'.counts, image := kb'.image, blocked := kb'.blocked, typematic := kb'.typematic } ∧
  kb'.image = inside.take new.rollover ∧
  kb'.blocked = (kb.blocked.filter fun e => new.usesKey e.1) ++ (inside.drop new.rollover).map (fun k => (k, BlockReason.rollover)) ∧
  (∀ k : Key, kb'.counts[k.val] = if new.usesKey k = true ∧ old.debounce = new.debounce then kb.counts[k.val] else 0) ∧
  kb'.typematic = kb.typematic.filter fun y => decide (y.key ∈ kb'.image ∧ new.repeatMap.getLsbD y.key.val = true)

/-! ## The stages of a pass (R22, R24 to R32) -/

/-- The keys that a pass works on, and the records it has produced so far. -/
structure KeyWork where
  image : List Key
  blocked : List (Key × BlockReason)
  records : List RecordBody

/-- The key on drive line `r` and sense line `c` counts as down (R20, R24). -/
def KeyWork.down (w : KeyWork) (r : Fin 8) (c : Fin 16) : Prop :=
  ∃ k ∈ w.image ++ w.blocked.map Prod.fst, k.val = 16 * r.val + c.val

/-- Why a key that goes down is blocked (R24 to R26): it is the fourth corner of a rectangle of keys that are down, or the image is full. -/
def KeyWork.refuses (w : KeyWork) (c : LaneSettings) (k : Key) (why : BlockReason) : Prop :=
  let ghost := c.isolated = false ∧ ∃ (r r' : Fin 8) (x x' : Fin 16), k.val = 16 * r.val + x.val ∧ r' ≠ r ∧ x' ≠ x ∧
    w.down r x' ∧ w.down r' x ∧ w.down r' x'
  match why with
  | .ghost => ghost
  | .rollover => ¬ghost ∧ c.rollover ≤ w.image.length

/-- The key is accepted as the newest key of the image (R27). -/
def KeyWork.accept (w : KeyWork) (k : Key) : KeyWork :=
  { w with image := w.image ++ [k], records := w.records ++ [.keyDown k (w.image.length + 1)] }

/-- One key of a stage: from `w` to `w'` the key has gone up (R31, R32). -/
def KeyWork.Up (w w' : KeyWork) (k : Key) : Prop :=
  (k ∈ w.image → w' = { w with
    image := w.image.filter fun j => decide (j ≠ k)
    records := w.records ++ [.keyUp k (w.image.length - 1)] }) ∧
  (k ∉ w.image → w' = { w with blocked := w.blocked.filter fun e => decide (e.1 ≠ k) })

/-- One entry of the blocked list: from `w` to `w'` it has been examined again (R30). -/
def KeyWork.Again (c : LaneSettings) (w w' : KeyWork) (k : Key) : Prop :=
  ((∃ why, w.refuses c k why) → w' = w) ∧
  ((∀ why, ¬w.refuses c k why) → w' = { w with blocked := w.blocked.filter fun e => decide (e.1 ≠ k) }.accept k)

/-- One key of a stage: from `w` to `w'` the key has gone down (R26 to R28). -/
def KeyWork.Down (c : LaneSettings) (w w' : KeyWork) (k : Key) : Prop :=
  (∀ why, w.refuses c k why → w' = { w with
    blocked := w.blocked ++ [(k, why)], records := w.records ++ [.keyBlocked k why w.image.length] }) ∧
  ((∀ why, ¬w.refuses c k why) → w' = w.accept k)

/-- From `w` to `w'` the keys of a list have each been handled, one after the other. -/
def KeyWork.each (one : KeyWork → KeyWork → Key → Prop) : List Key → KeyWork → KeyWork → Prop
  | [], w, w' => w' = w
  | k :: ks, w, w' => ∃ v, one w v k ∧ KeyWork.each one ks v w'

/-! ## Events of lanes, and orders -/

/-- The walker has handed the order `o` of the slip `sl` on, and its owner has still to take it (R143). -/
def State.hands (s : State) (o : Order) (sl : Slip) : Prop :=
  s.walker.state = .working ∧ s.walker.stage = .handed o ∧ s.walker.current = some sl

/-- In `s` the order `c` of the slip `sl` goes to a next state: its owner's own work gives `e`, and in the same event the walker takes
the answer `a` and asks for the body write, with the clock as the finish time (R143). -/
def AnsweredBy (c : Instr) (s e : State) (sl : Slip) (a : Answer) : Prop :=
  ∃ m t, exec c s = .next t ∧ SettleFrame m t ∧
    m = { e with dma := m.dma, walker := { e.walker with state := .working, stage := .body a } } ∧
    t.asks .walker (writeRequest .slipBodyWrite (sl.offset + 0x1C) (a.body s.run.clock))

/-- The device is RUNNING or STOPPING, no loss of lane `l` holds a class back (R108), and the queue has room for every record of a
short event of the lane (R102). -/
def State.roomy (s : State) (l : Lane) : Prop :=
  (s.run.device = .running ∨ s.run.device = .stopping) ∧ (s.lane l).losses[0] = 0 ∧ (s.lane l).losses[1] = 0 ∧
    s.staging.queue.length < 80

/-- From `s`, in RUNNING or STOPPING, to `t` lane `l` has offered the records `bs`, in this order, and each that the device state
produces (R100) has entered at the tail: with the clock, under consecutive lane sequences from the lane's own, which goes on behind
them (R103), and with flow hold set when the fill has reached the flow high mark (R105). The rest of the staging queue is as it was. -/
def Produces (s t : State) (l : Lane) (bs : List RecordBody) : Prop :=
  let made := bs.filter fun b => decide (s.run.device = .running ∨ 2 ≤ b.cls)
  t.staging = { s.staging with
    queue := s.staging.queue ++ stamped l s.run.clock (s.lane l).seq made
    hold := s.staging.hold || decide (made ≠ [] ∧ s.unit.host.flowHigh ≤ s.staging.queue.length + made.length) } ∧
  (t.lane l).seq = (s.lane l).seq + BitVec.ofNat 16 made.length

/-- From `s` to `t` the counter `c` of lane `l` has counted once, unless it is inhibited (R165). -/
def Counted (s t : State) (l : Lane) (c : Counter) : Prop :=
  (t.lane l).counters[c.index] =
    (s.lane l).counters[c.index] + if (s.lane l).settings.inhibit.getLsbD c.index.val then 0 else 1

/-- The wake source `w` makes lane `l` ACTIVE: the lane is in DOZE with the source in its wake mask, in RUNNING or STOPPING (R3, R7). -/
def State.wakes (s : State) (l : Lane) (w : WakeSource) : Bool :=
  decide ((s.lane l).laneState = .doze ∧ (s.lane l).settings.wake.getLsbD w.index = true ∧
    (s.run.device = .running ∨ s.run.device = .stopping))

/-- The ports whose frame in ASSEMBLING the lane state `new` cuts, for it turns their receiver OFF (R42, R50). -/
def LaneUnit.cutPorts (u : LaneUnit) (new : LaneState) : List Port :=
  [Port.a, Port.b].filter fun p =>
    (u.port p).on && !{ u with laneState := new }.receiverOn p && decide ((u.port p).frame = .assembling)

/-- The records that a change of lane state offers: LANE_STATE (R2), and behind it CUT of port A and then B where a frame is cut (R50,
R51). -/
def LaneUnit.changeRecords (u : LaneUnit) (new : LaneState) (cause : StateCause) : List RecordBody :=
  .laneState new cause :: (u.cutPorts new).map fun p => .labelRefused p (.cut (u.port p).text.length)

/-- The records that a wake of lane `l` by `w` offers, ahead of those of the event that brought it: none where it does not wake (R7, R13,
R79). -/
def State.wakeRecords (s : State) (l : Lane) (w : WakeSource) : List RecordBody :=
  if s.wakes l w then (s.lane l).changeRecords .active (.wake w) else []

/-- The keyboard scanner that the lane state `new` calls for, entered without a capture: as it was when its mode is that one already
(R5, R9, R21). -/
def LaneUnit.kbIn (u : LaneUnit) (new : LaneState) : Keyboard :=
  if { u with laneState := new }.scanMode = u.kb.mode then u.kb
  else Keyboard.entered { u with laneState := new }.scanMode u.settings.pass

/-- From `s` to `t` lane `l` has changed to the state `new`: its idle timer (R4), its status rewrite (R162), its receivers with the frames
they held (R42), its tones (R55) and, in RUNNING and STOPPING, the count of the frames cut (R51, R165) are as the new state calls for. -/
structure LaneChange (s t : State) (l : Lane) (new : LaneState) : Prop where
  state : (t.lane l).laneState = new
  idle : (t.lane l).idle = if new = .active then (s.lane l).settings.idlePeriod else none
  rewrite : (t.lane l).rewrite = true
  receivers : ∀ p, ((t.lane l).port p).on = { s.lane l with laneState := new }.receiverOn p
  frames : ∀ p, ((s.lane l).port p).on = true → ((t.lane l).port p).on = false →
    ((t.lane l).port p).frame = .waiting ∧ ((t.lane l).port p).text = [] ∧ ((t.lane l).port p).gap = none
  tones : new = .off ∨ new = .disabled → ∀ p, ((t.lane l).port p).toneOn = false ∧ ((t.lane l).port p).tone = none
  refused : (t.lane l).counters[1] = (s.lane l).counters[1] +
    if (s.run.device = .running ∨ s.run.device = .stopping) ∧ (s.lane l).settings.inhibit.getLsbD 1 = false then
      BitVec.ofNat 16 ((s.lane l).cutPorts new).length
    else 0

/-- From `s` to `t` lane `l` has stayed in its lane state, with its idle timer and its keyboard scanner as they were. -/
def LaneStays (s t : State) (l : Lane) : Prop :=
  (t.lane l).laneState = (s.lane l).laneState ∧ (t.lane l).idle = (s.lane l).idle ∧ (t.lane l).kb = (s.lane l).kb

/-- From `s` to `t` the wake source `w` has occurred in lane `l` (R7): where it wakes the lane, the lane has become ACTIVE, with the idle
timer restarted and the keyboard SCANNING; elsewhere the lane has stayed in its state. -/
def WokenBy (s t : State) (l : Lane) (w : WakeSource) : Prop :=
  if s.wakes l w then LaneChange s t l .active ∧ (t.lane l).kb = (s.lane l).kbIn .active else LaneStays s t l

/-! ## Invariants -/

/-- Host memory as the part has written it stands in canonical form (log 5). -/
def State.memOk (s : State) : Prop := memWf s.hostMem = true

/-- The staging queue holds at most 96 records (R102), none in RESET_IDLE, LOADING and STOPPED (R113 to R115), and the flow low
mark leaves the recovery step its room (R109). -/
def State.queueOk (s : State) : Prop :=
  s.staging.queue.length ≤ 96 ∧ s.unit.host.flowLow ≤ 72 ∧ s.unit.loadHost.flowLow ≤ 72 ∧
    (s.run.device = .resetIdle ∨ s.run.device = .loading ∨ s.run.device = .stopped → s.staging.queue = [])

/-- A drawer whose latch is set is not KICKING (R92), its kick output is on only while KICKING and only under a running pulse
timer (R80), its history has at most 8 entries (R84), and its failure count is at most 2 (R88). -/
def Drawer.ok (d : Drawer) : Prop :=
  (d.latch = true → d.cond ≠ .kicking) ∧ (d.kickOut = true → d.cond = .kicking ∧ d.pulse ≠ none) ∧ d.history.length ≤ 8 ∧
    d.failCount ≤ 2

/-- A port holds at most 48 text characters (R46), and a frame only while ASSEMBLING (R47 to R50). -/
def ScanPort.ok (q : ScanPort) : Prop :=
  q.text.length ≤ 48 ∧ (q.frame ≠ .assembling → q.text = [] ∧ q.mark = none ∧ q.damaged = false ∧ q.tooLong = false)

/-- A receiver is ON exactly where R42 calls for it, and only a receiver that is ON has a frame state other than WAITING (R42). -/
def LaneUnit.receiversOk (u : LaneUnit) : Prop :=
  ∀ p, (u.port p).on = u.receiverOn p ∧ ((u.port p).frame ≠ .waiting → (u.port p).on = true)

/-- Every receiver of every lane is ON exactly where R42 calls for it. -/
def State.receiversOk (s : State) : Prop := ∀ l, (s.lane l).receiversOk

/-- Outside SCANNING no key is tracked (R21), and no more keys are in the image than the rollover limit (R25). -/
def LaneUnit.keysOk (u : LaneUnit) : Prop :=
  (u.kb.mode ≠ .scanning → u.kb.image = [] ∧ u.kb.blocked = []) ∧ u.kb.image.length ≤ u.settings.rollover

/-- A key that counts as down stands once: in the image or in the blocked list, and not in both (R20, R26, R30). -/
def LaneUnit.keysOnce (u : LaneUnit) : Prop := u.kb.downKeys.Nodup

/-- What every step keeps of a lane unit. -/
def LaneUnit.ok (u : LaneUnit) : Prop := u.drawer.ok ∧ u.portA.ok ∧ u.portB.ok ∧ u.keysOk

/-- What every step keeps of every lane unit. -/
def State.lanesOk (s : State) : Prop := ∀ l, (s.lane l).ok

/-- In every lane a key that counts as down stands once. -/
def State.keysOnce (s : State) : Prop := ∀ l, (s.lane l).keysOnce

/-- In FAULTED the engine holds no request: the arbiter grants nothing more (R168, R181). -/
def State.faultOk (s : State) : Prop := s.run.device = .faulted → s.dma.granted = none

/-- Outside FAULTED the engine is granted whenever a request waits (R167). -/
def State.engineOk (s : State) : Prop :=
  s.run.device ≠ .faulted → s.dma.granted = none → s.dma.waitJ = none ∧ s.dma.waitW = none ∧ s.dma.waitS = none

/-- The requester whose requests have the purpose (R167). -/
def Purpose.owner : Purpose → Requester
  | .hostPartRead | .laneSettingsRead _ | .deviceStatusWrite | .laneStatusWrite _ | .reloadRead _ | .reloadEcho _ => .settings
  | .pageLinkRead | .pageHeaderRead _ | .recordWrite | .headerBodyWrite | .closedMarkerWrite => .journal
  | .orderLinkRead | .slipRead _ | .takenWrite | .slipBodyWrite | .slipStateWrite => .walker

/-- Every request is one of its requester's own, the settings unit has at most one (R167), and a lane's settings record is read for
LOADING alone (R155): what a fault has left waiting is never granted (R168). -/
def State.loadOk (s : State) : Prop :=
  (∀ w r, s.dma.waitingOf w = some r → r.purpose.owner = w) ∧
    (∀ g, s.dma.granted = some g → g.req.purpose.owner = g.who ∧ (g.who = .settings → s.dma.waitS = none) ∧
      ∀ l, g.req.purpose = .laneSettingsRead l → s.run.device = .loading) ∧
    ∀ r l, s.dma.waitS = some r → r.purpose = .laneSettingsRead l → s.run.device = .loading ∨ s.run.device = .faulted

/-- Nothing is left to be done at the end of an event: the record pump, the end of the drain, the settings unit's next request and the
grant (R126, R133, R155, R164, R167) find nothing to do. -/
def State.settled (s : State) : Prop := s.settle = s

/-- The area base is a multiple of 4096 (R176). -/
def State.baseOk (s : State) : Prop := s.run.areaLow &&& 0xFFF = 0

/-- The ranges of a port's settings (R41). -/
def PortSettings.inRange (p : PortSettings) : Prop :=
  p.rate ≤ 7 ∧ 1 ≤ p.minLength ∧ p.minLength ≤ 48 ∧ 2 ≤ p.gapMs ∧ p.gapMs ≤ 255 ∧ 20 ≤ p.toneMs ∧ p.toneMs ≤ 500

/-- The ranges of the drawer settings (R76). -/
def DrawerSettings.inRange (d : DrawerSettings) : Prop :=
  20 ≤ d.kickMs ∧ d.kickMs ≤ 250 ∧ 100 ≤ d.confirmMs ∧ d.confirmMs ≤ 3000 ∧ 5 ≤ d.alertS ∧ d.alertS ≤ 600 ∧
    d.alertS ≤ d.faultS ∧ 5 ≤ d.faultS ∧ d.faultS ≤ 3600 ∧ 4 ≤ d.settleMs ∧ d.settleMs ≤ 64 ∧ d.presenceS ≤ 60 ∧
    (d.lockoutCount = 0 ∨ 2 ≤ d.lockoutCount ∧ d.lockoutCount ≤ 8) ∧ 1 ≤ d.lockoutMin ∧ d.lockoutMin ≤ 120

/-- The ranges of a lane's settings (R41, R60, R76, R158). -/
def LaneSettings.inRange (c : LaneSettings) : Prop :=
  c.idleMin ≤ 255 ∧ 1 ≤ c.drive ∧ c.drive ≤ 8 ∧ 1 ≤ c.sense ∧ c.sense ≤ 16 ∧ 1 ≤ c.pass ∧ c.pass ≤ 16 ∧
    1 ≤ c.debounce ∧ c.debounce ≤ 8 ∧ 2 ≤ c.rollover ∧ c.rollover ≤ 16 ∧ 50 ≤ c.settleMs ∧ c.settleMs ≤ 1000 ∧
    100 ≤ c.typematicMs ∧ c.typematicMs ≤ 2000 ∧ 30 ≤ c.repeatMs ∧ c.repeatMs ≤ 500 ∧ c.dupWindowMs ≤ 2000 ∧
    c.portA.inRange ∧ c.portB.inRange ∧ c.drawer.inRange

/-- The ranges of the host part (R116, R157). -/
def HostSettings.inRange (h : HostSettings) : Prop :=
  1 ≤ h.lanesInUse ∧ h.lanesInUse ≤ 8 ∧ h.pageCode ≤ 3 ∧ 1 ≤ h.notice ∧ h.notice ≤ 16 ∧ 1 ≤ h.urgent ∧ h.urgent ≤ 4 ∧
    16 ≤ h.flowHigh ∧ h.flowHigh ≤ 80 ∧ h.flowLow + 8 ≤ h.flowHigh ∧ h.lingerMs ≤ 1000 ∧ h.recheckMs ≤ 255

/-- A configured lane's effective settings lie within their ranges, and so does every drawer store (R158, R161). -/
def LaneUnit.settingsOk (u : LaneUnit) : Prop :=
  (u.configured = true → u.settings.inRange) ∧ ∀ d, u.store = some d → d.inRange

/-- Every effective setting of every lane lies within its range (R158). -/
def State.settingsOk (s : State) : Prop := ∀ l, (s.lane l).settingsOk

end Sys2Proof.Machine
end

