-- ==== Sys2Proof/Certificates/Slice0/Obligations.lean ====
section
/-! DEFINITION. The statements for the provers. Each docstring names the rules it rests on and, where a clause is the model's own
choice, the log entry. -/

open Sys2Proof Sys2Proof.Machine

/-! ## The step and the clock -/

/-- A step takes the command at the front of the queue, and runs it with the rest of the queue left waiting. -/
def Obligations.StepTakesFront : Prop :=
  ∀ (s : State) (c : Instr) (rest : List Instr), s.pending = c :: rest → step s = exec c { s with pending := rest }

/-- A step on an empty queue is one tick of the device clock (R174; that an empty queue is what a tick waits for is the model's
choice, log 1): the clock rises by one in every device state, every running timer has one tick less, the idle timer only while its
lane is ACTIVE in RUNNING or STOPPING (R3, R4), and nothing else moves. -/
def Obligations.EmptyQueueTicks : Prop :=
  ∀ s : State, s.pending = [] → ∃ t, step s = .next t ∧
    t = { s with
      run.clock := s.run.clock + 1
      lanes := t.lanes
      journal.linger := s.journal.linger.map (· - 1)
      journal.recheck := s.journal.recheck.map (· - 1)
      walker.recheck := s.walker.recheck.map (· - 1) } ∧
    ∀ l, t.lane l = { s.lane l with
      idle := if (s.run.device = .running ∨ s.run.device = .stopping) ∧ (s.lane l).laneState = .active
        then (s.lane l).idle.map (· - 1) else (s.lane l).idle
      keylock.settle := (s.lane l).keylock.settle.map (· - 1)
      keylock.indet := (s.lane l).keylock.indet.map (· - 1)
      kb.passTimer := (s.lane l).kb.passTimer.map (· - 1)
      kb.typematic := (s.lane l).kb.typematic.map fun y => { y with left := y.left - 1 }
      portA.gap := (s.lane l).portA.gap.map (· - 1)
      portA.tone := (s.lane l).portA.tone.map fun y => { y with left := y.left - 1 }
      portB.gap := (s.lane l).portB.gap.map (· - 1)
      portB.tone := (s.lane l).portB.tone.map fun y => { y with left := y.left - 1 }
      drawer.pulse := (s.lane l).drawer.pulse.map (· - 1)
      drawer.confirm := (s.lane l).drawer.confirm.map (· - 1)
      drawer.settle := (s.lane l).drawer.settle.map (· - 1)
      drawer.alert := (s.lane l).drawer.alert.map (· - 1)
      drawer.faultMark := (s.lane l).drawer.faultMark.map (· - 1)
      drawer.presence := (s.lane l).drawer.presence.map (· - 1)
      drawer.measuring := (s.lane l).drawer.measuring.map (· - 1) }

/-! ## The resets (R182) -/

/-- What State.reset holds, block by block: the values that R182, R19, R40, R59, R75, R99, R114, R135, R154, R165, R168 and R169
give for a power-on reset. -/
def Obligations.ResetValues : Prop :=
  let s := State.reset
  (s.run.device = .resetIdle ∧ s.run.fault = .none ∧ s.run.lastReset = .powerOn ∧ s.run.runCount = 0 ∧ s.run.clock = 0 ∧
    s.run.causes = 0 ∧ s.run.enable = 0 ∧ s.irq = false ∧ s.run.walkerDone = false ∧ s.run.journalDone = false ∧
    s.run.areaLow = 0 ∧ s.run.areaHigh = 0) ∧
  (s.dma.last = .settings ∧ s.dma.granted = none ∧ s.dma.waitJ = none ∧ s.dma.waitW = none ∧ s.dma.waitS = none) ∧
  (∀ l, (s.lane l).configured = false ∧ (s.lane l).laneState = .disabled ∧ (s.lane l).settings.wake = 0 ∧
    (s.lane l).idle = none ∧ (s.lane l).keylock.position = .lock ∧ (s.lane l).keylock.candidate = none ∧
    (s.lane l).keylock.settle = none ∧ (s.lane l).keylock.indet = none ∧ (s.lane l).keylock.running = false ∧
    (s.lane l).store = none ∧ (s.lane l).clamped = false ∧ (s.lane l).held = false ∧ (s.lane l).rewrite = false) ∧
  (∀ l, (s.lane l).kb.mode = .idle ∧ (∀ k, (s.lane l).kb.isDown k = false) ∧ (∀ k : Key, (s.lane l).kb.counts[k.val] = 0) ∧
    (s.lane l).kb.image = [] ∧ (s.lane l).kb.blocked = [] ∧ (s.lane l).kb.typematic = none ∧
    (s.lane l).kb.anyStage = .waitClear ∧ (s.lane l).kb.anyCount = 0 ∧ (s.lane l).kb.capture = none) ∧
  (∀ l p, ((s.lane l).port p).on = false ∧ ((s.lane l).port p).frame = .waiting ∧ ((s.lane l).port p).text = [] ∧
    ((s.lane l).port p).mark = none ∧ ((s.lane l).port p).damaged = false ∧ ((s.lane l).port p).tooLong = false ∧
    ((s.lane l).port p).gap = none ∧ ((s.lane l).port p).orderEnable = false ∧ ((s.lane l).port p).toneOn = false ∧
    ((s.lane l).port p).tone = none ∧ s.ready l p = false) ∧
  (∀ l, (s.lane l).acceptor.last = none ∧ (s.lane l).acceptor.keySince = false) ∧
  (∀ l, (s.lane l).drawer.running = false ∧ (s.lane l).drawer.cond = .closed ∧ (s.lane l).drawer.kickOut = false ∧
    (s.lane l).drawer.pulse = none ∧ (s.lane l).drawer.confirm = none ∧ (s.lane l).drawer.settle = none ∧
    (s.lane l).drawer.presence = none ∧ (s.lane l).drawer.settledOpen = false ∧ (s.lane l).drawer.openedAt = 0 ∧
    (s.lane l).drawer.stage = .none ∧ (s.lane l).drawer.alert = none ∧ (s.lane l).drawer.faultMark = none ∧
    (s.lane l).drawer.ajarFault = false ∧ (s.lane l).drawer.measuring = none ∧ (s.lane l).drawer.failCount = 0 ∧
    (s.lane l).drawer.latch = false ∧ (s.lane l).drawer.history = []) ∧
  (∀ l, (∀ i : Fin 8, (s.lane l).counters[i] = 0) ∧ (s.lane l).noted = 0 ∧ (s.lane l).seq = 0 ∧
    ∀ i : Fin 4, (s.lane l).losses[i] = 0) ∧
  (s.staging.queue = [] ∧ s.staging.hold = false ∧ s.staging.devSeq = 0 ∧ s.staging.markWaiting = none) ∧
  (s.journal.state = .idle ∧ s.journal.fromAnchor = true ∧ s.journal.lastClosed = none ∧ s.journal.page = none ∧
    s.journal.linger = none ∧ s.journal.recheck = none ∧ s.journal.pageSeq = 0 ∧ s.journal.journalSeq = 0 ∧
    s.journal.unannounced = 0 ∧ s.journal.episode = false ∧ s.journal.stale = none ∧ s.journal.reread = false ∧
    s.journal.flush = .none) ∧
  (s.walker.state = .idle ∧ s.walker.fromAnchor = true ∧ s.walker.lastFinished = none ∧ s.walker.current = none ∧
    s.walker.stale = none ∧ s.walker.reread = false ∧ s.walker.recheck = none) ∧
  (s.unit.policyLock = false ∧ s.unit.devRewrite = false ∧ s.unit.reload = none ∧ s.unit.stall.offset = 0 ∧
    s.unit.stall.reason = .none ∧ s.unit.stall.owner = .none)

/-- POWER_ON_RESET and LINK_RESET in any state (R182, R19, R40, R59, R75, R99, R114, R135, R154, R165, R168, R169): every block
takes its reset values and the last reset kind names the reset. Host memory holds what an abandoned write may have left (R134,
R153). That the input pins stay as they stand and the commands that wait go on waiting is log 7 and log 29, that the data of the last
read of CAUSE stays is log 11, and that the kick time and the periods in force are 0 and the settings that a reset leaves none are
zeros is log 8 and log 9. -/
def Obligations.FullResets : Prop :=
  ∀ (s : State) (c : Instr) (k : ResetKind), c = .powerOnReset ∧ k = .powerOn ∨ c = .linkReset ∧ k = .link →
    ∃ t, exec c s = .next t ∧
      t.run = { RunControl.reset with lastReset := k } ∧
      (∀ l, t.lane l = { LaneUnit.reset with
        keylock := { Keylock.reset with contacts := (s.lane l).keylock.contacts }
        drawer := { Drawer.reset with rawOpen := (s.lane l).drawer.rawOpen } }) ∧
      t.staging = .reset ∧ t.journal = .reset ∧ t.walker = .reset ∧ t.unit = .reset ∧ t.dma = .reset ∧ t.irq = false ∧
      Abandoned s t ∧ t.pending = s.pending ∧ t.causeReadData = s.causeReadData

/-- RESET, the soft reset, in any state (R170, R182): as the others, but the area base (R182), the policy lock and the drawer
stores (R169) are kept, and the lockout latch and the history with the age of each entry, on the clock that the reset sets to 0
(R99). Logs 7, 8, 9, 11 and 29 as for the other resets. -/
def Obligations.SoftReset : Prop :=
  ∀ s : State, ∃ t, exec .reset s = .next t ∧
    t.run = { RunControl.reset with lastReset := .soft, areaLow := s.run.areaLow, areaHigh := s.run.areaHigh } ∧
    (∀ l, t.lane l = { LaneUnit.reset with
      store := (s.lane l).store
      keylock := { Keylock.reset with contacts := (s.lane l).keylock.contacts }
      drawer := { Drawer.reset with
        rawOpen := (s.lane l).drawer.rawOpen
        latch := (s.lane l).drawer.latch
        history := (t.lane l).drawer.history } }) ∧
    (∀ l, (t.lane l).drawer.history.map (fun e => t.run.clock - e) = (s.lane l).drawer.history.map (fun e => s.run.clock - e)) ∧
    t.staging = .reset ∧ t.journal = .reset ∧ t.walker = .reset ∧ t.dma = .reset ∧
    t.unit = { SettingsUnit.reset with policyLock := s.unit.policyLock } ∧ t.irq = false ∧
    Abandoned s t ∧ t.pending = s.pending ∧ t.causeReadData = s.causeReadData

/-! ## The CONTROL commands, NOTIFY and the registers (chapter 10) -/

/-- RUN (R170, R171): in RESET_IDLE and STOPPED the device enters LOADING with the run count advanced and both drain marks clear,
everything else of run control as it was, and the load begins with the read of the host part (R155). In every other state the
command changes nothing. -/
def Obligations.RunTaken : Prop :=
  ∀ s : State,
    (s.run.device = .resetIdle ∨ s.run.device = .stopped →
      ∃ m t, exec .run s = .next t ∧ SettleFrame m t ∧
        m = { s with
          run := { s.run with device := .loading, runCount := s.run.runCount + 1, walkerDone := false, journalDone := false }
          unit := { s.unit with devRewrite := true, load := .hostPart } } ∧
        t.run = m.run ∧ (s.dma.busy .settings = false → t.asks .settings (readRequest .hostPartRead 0 64))) ∧
    (s.run.device ≠ .resetIdle → s.run.device ≠ .stopped → exec .run s = .next s)

/-- HALT (R133, R170, R173): in RUNNING the device enters STOPPING; the walker has reported at once when it is PARKED or BROKEN (R152),
and where then nothing is left to drain and the journal writer is STARVED, BROKEN or holds an open page without a record, the journal
writer reports too and the device is STOPPED at once. A baseline capture goes on into STOPPING, and is abandoned where the device is
STOPPED at once (R10). READY drops at every port; every frame in assembly is cut and counted without a record (R50, R51, R165), and
nothing else of a lane changes but what follows from the count; a PARKED or BROKEN walker is HALTED, its re-read pending flag cleared
(log 46), and any other goes on (R152). In every other state the command changes nothing. -/
def Obligations.HaltTaken : Prop :=
  ∀ s : State,
    (s.run.device = .running →
      let done := s.run.walkerDone = true ∨ s.walker.state = .parked ∨ s.walker.state = .broken
      let ended := done ∧ s.staging.queue = [] ∧ (∀ (l : Lane) (i : Fin 4), (s.lane l).losses[i] = 0) ∧
        (s.journal.state = .starved ∨ s.journal.state = .broken ∨ s.journal.state = .filling ∧ s.dma.busy .journal = false ∧
          ∃ page, s.journal.page = some page ∧ page.closing = none ∧ page.count = 0)
      ∃ t, exec .halt s = .next t ∧
        (t.run.walkerDone = true ↔ done) ∧
        (ended → t.run.device = .stopped ∧ t.run.journalDone = true ∧ t.journal.state = .halted) ∧
        (¬ended → t.run.device = .stopping ∧ t.run.journalDone = s.run.journalDone) ∧
        (∀ l, (ended → (t.lane l).kb.capture = none) ∧ (¬ended → (t.lane l).kb.capture = (s.lane l).kb.capture)) ∧
        (∀ l p, t.ready l p = false) ∧
        (∀ l p, (t.lane l).port p =
          if ((s.lane l).port p).frame = .assembling then
            { (s.lane l).port p with frame := .discarding, mark := none, text := [], damaged := false, tooLong := false }
          else (s.lane l).port p) ∧
        (∀ l, (t.lane l).counters[1] = (s.lane l).counters[1] +
          if (s.lane l).settings.inhibit.getLsbD 1 then 0
          else BitVec.ofNat 16 ([Port.a, Port.b].filter fun p => ((s.lane l).port p).frame = .assembling).length) ∧
        (∀ l, t.lane l = { s.lane l with
          portA := (t.lane l).portA
          portB := (t.lane l).portB
          counters := (s.lane l).counters.set 1 (t.lane l).counters[1]
          noted := (t.lane l).noted
          rewrite := (t.lane l).rewrite
          kb := { (s.lane l).kb with capture := (t.lane l).kb.capture } }) ∧
        t.staging = s.staging ∧ t.hostMem = s.hostMem ∧
        t.walker = (match s.walker.state with
          | .parked | .broken => { s.walker with state := .halted, recheck := none, reread := false, rehead := false }
          | _ => s.walker)) ∧
    (s.run.device ≠ .running → exec .halt s = .next s)

/-- The REHEAD commands (R124, R142, R170). REHEAD_PAGES is taken by a journal writer that is STARVED or BROKEN, that re-reads in a
starved episode, or that is HALTED in STOPPED: the link source becomes ANCHOR, the last closed page stays, and a fetch from the
anchor's page head starts or is due at the end of the one in flight. REHEAD_ORDERS is the same for the walker. A command that is not
taken changes nothing. That a walker which leaves PARKED for it asks for a rewrite of the device status section is log 19. -/
def Obligations.ReheadCommands : Prop :=
  ∀ s : State,
    (s.journal.state = .starved ∨ s.journal.state = .broken ∨ (s.journal.state = .needPage ∧ s.journal.episode = true) ∨
        (s.journal.state = .halted ∧ s.run.device = .stopped) →
      ∃ m t, exec .reheadPages s = .next t ∧ SettleFrame m t ∧
        m = { s with dma := m.dma, journal := { s.journal with
          fromAnchor := true
          state := if s.journal.state = .halted then .halted else .needPage
          rehead := s.journal.rehead || decide (s.journal.state = .needPage) } } ∧
        t.journal = m.journal ∧
        (s.journal.state = .starved ∨ s.journal.state = .broken → t.asks .journal (readRequest .pageLinkRead 0x14 4))) ∧
    (¬(s.journal.state = .starved ∨ s.journal.state = .broken ∨ (s.journal.state = .needPage ∧ s.journal.episode = true) ∨
        (s.journal.state = .halted ∧ s.run.device = .stopped)) → exec .reheadPages s = .next s) ∧
    (s.walker.state = .parked ∨ s.walker.state = .broken ∨ (s.walker.state = .fetching ∧ s.walker.isReread = true) ∨
        (s.walker.state = .halted ∧ s.run.device = .stopped) →
      ∃ m t, exec .reheadOrders s = .next t ∧ SettleFrame m t ∧
        m = { s with
          dma := m.dma
          unit.devRewrite := s.unit.devRewrite || decide (s.walker.state = .parked)
          walker := { s.walker with
            fromAnchor := true
            state := if s.walker.state = .halted then .halted else .fetching
            isReread := m.walker.isReread
            rehead := s.walker.rehead || decide (s.walker.state = .fetching) } } ∧
        (s.walker.state = .parked ∨ s.walker.state = .broken → t.asks .walker (readRequest .orderLinkRead 0x10 4))) ∧
    (¬(s.walker.state = .parked ∨ s.walker.state = .broken ∨ (s.walker.state = .fetching ∧ s.walker.isReread = true) ∨
        (s.walker.state = .halted ∧ s.run.device = .stopped)) → exec .reheadOrders s = .next s)

/-- NOTIFY, with any value, in every device state (R177): a STARVED journal writer starts a re-read and restarts its recheck timer
(R121, R122), a PARKED walker likewise (R139), a fetch in flight of either sets its re-read pending flag, and in every other state
of a block the command does nothing to it. NOTIFY reads 0, and IDENT its constant, in every state; a write of IDENT changes nothing.
That a PARKED walker's re-read counts as leaving PARKED and so asks for a rewrite of the device status section is the model's reading,
log 19. -/
def Obligations.NotifyTaken : Prop :=
  ∀ (s : State) (v : Word32),
    ∃ m t, exec (.notify v) s = .next t ∧ SettleFrame m t ∧
      m = { s with
        dma := m.dma
        journal := (match s.journal.state with
          | .starved => { s.journal with state := .needPage, recheck := s.unit.host.recheckTimer }
          | .needPage => { s.journal with reread := true }
          | _ => s.journal)
        walker := (match s.walker.state with
          | .parked => { s.walker with state := .fetching, isReread := true, recheck := s.unit.host.recheckTimer }
          | .fetching => { s.walker with reread := true }
          | _ => s.walker)
        unit.devRewrite := s.unit.devRewrite || decide (s.walker.state = .parked) } ∧
      (s.journal.state = .starved → t.journal = m.journal ∧ t.asks .journal (readRequest .pageLinkRead s.journal.linkOffset 4)) ∧
      (s.walker.state = .parked → t.asks .walker (readRequest .orderLinkRead s.walker.linkOffset 4)) ∧
      (s.journal.state ≠ .starved → s.journal.state ≠ .needPage → s.walker.state ≠ .parked → s.walker.state ≠ .fetching → t = s) ∧
      s.readRegister 4 = 0 ∧ s.readRegister 0 = 0x08040001 ∧ (∀ w b, exec (.registerWriteOther 0 w b) s = .next s)

/-- A read of CAUSE by any of its bytes (R175, R180): it returns the pending causes in bits 6 to 0 and the top cause in bits 10 to
8, of which the bytes addressed are those read; the pending set is empty after it and the interrupt request deasserted; nothing else
changes. A write to CAUSE clears nothing. That the data read stands in `causeReadData` is the model's choice (log 11). -/
def Obligations.CauseRead : Prop :=
  ∀ (s : State) (bytes : BitVec 4), ∃ t, exec (.causeRead bytes) s = .next t ∧
    t = { s with run.causes := 0, causeReadData := t.causeReadData } ∧ t.irq = false ∧
    (∀ i, i < 32 → t.causeReadData.getLsbD i =
      (bytes.getLsbD (i / 8) && (if i < 7 then s.run.causes.getLsbD i else if i < 8 then false else s.topCause.testBit (i - 8)))) ∧
    s.topCause = (if s.run.causes.getLsbD 6 then 7 else if s.run.causes.getLsbD 4 then 6 else if s.run.causes.getLsbD 3 then 5
      else if s.run.causes.getLsbD 2 then 4 else if s.run.causes.getLsbD 5 then 3 else if s.run.causes.getLsbD 0 then 2
      else if s.run.causes.getLsbD 1 then 1 else 0) ∧
    (∀ v b, commandOfWrite 5 v b = .registerWriteOther 5 v b ∧ exec (.registerWriteOther 5 v b) s = .next s)

/-- The register window (R175, R176, R179, R182), read and written. IDENT reads its constant; CONTROL the device state, the fault reason,
the last reset kind, the interrupt request and the run count, in their places with all other bits 0; the AREA registers what they hold,
with bits 11 to 0 of AREA_LOW 0 where the base is aligned (which every step keeps); NOTIFY and the offsets that name no register 0; CAUSE
the pending causes and the top cause. The interrupt request is asserted just while a pending cause is enabled. A CONTROL write that
includes byte 0 is the command its bits 3 to 0 name; a write of NOTIFY is a NOTIFY; a write of an AREA register in RESET_IDLE and STOPPED
replaces the bytes written, but for bits 11 to 0 of AREA_LOW, and is ignored in every other state; every other write is ignored and
changes nothing at all. A read of any bytes of CAUSE clears the pending set. -/
def Obligations.RegisterWindow : Prop :=
  ∀ (s : State) (v : Word32) (bytes : BitVec 4),
    let device := match s.run.device with
      | .resetIdle => 0 | .loading => 1 | .running => 2 | .stopping => 3 | .stopped => 4 | .faulted => 5
    let reason := match s.run.fault with | .none => 0 | .anchorBad => 1 | .linkAbort => 2
    let kind := match s.run.lastReset with | .powerOn => 0 | .link => 1 | .soft => 2
    s.readRegister 0 = 0x08040001 ∧
    (∀ i, i < 32 → (s.readRegister 1).getLsbD i =
      if i < 4 then device.testBit i else if i < 8 then reason.testBit (i - 4) else if i < 10 then kind.testBit (i - 8)
      else if i = 12 then s.irq else if i < 16 then false else s.run.runCount.getLsbD (i - 16)) ∧
    s.readRegister 2 = s.run.areaLow ∧ (s.baseOk → ∀ i, i < 12 → (s.readRegister 2).getLsbD i = false) ∧
    s.readRegister 3 = s.run.areaHigh ∧ s.readRegister 4 = 0 ∧
    (∀ i, i < 32 → (s.readRegister 5).getLsbD i =
      if i < 7 then s.run.causes.getLsbD i else if i < 8 then false else s.topCause.testBit (i - 8)) ∧
    s.readRegister 6 = 0 ∧ s.readRegister 7 = 0 ∧
    (s.irq = true ↔ ∃ i, i < 7 ∧ s.run.causes.getLsbD i = true ∧ s.run.enable.getLsbD i = true) ∧
    (bytes.getLsbD 0 = true →
      (v &&& 0xF = 1 → commandOfWrite 1 v bytes = .run) ∧ (v &&& 0xF = 2 → commandOfWrite 1 v bytes = .halt) ∧
      (v &&& 0xF = 3 → commandOfWrite 1 v bytes = .reset) ∧ (v &&& 0xF = 4 → commandOfWrite 1 v bytes = .reheadOrders) ∧
      (v &&& 0xF = 5 → commandOfWrite 1 v bytes = .reheadPages)) ∧
    commandOfWrite 2 v bytes = .areaWrite false v bytes ∧ commandOfWrite 3 v bytes = .areaWrite true v bytes ∧
    commandOfWrite 4 v bytes = .notify v ∧
    (∀ reg, (reg = 1 ∧ (bytes.getLsbD 0 = false ∨ v &&& 0xF = 0 ∨ 6 ≤ v.toNat % 16)) ∨ reg = 0 ∨ 5 ≤ reg.val →
      commandOfWrite reg v bytes = .registerWriteOther reg v bytes) ∧
    (∀ reg, exec (.registerWriteOther reg v bytes) s = .next s) ∧
    (∀ high, s.run.device = .resetIdle ∨ s.run.device = .stopped →
      ∃ t, exec (.areaWrite high v bytes) s = .next t ∧
        t = { s with
          run.areaHigh := if high then t.run.areaHigh else s.run.areaHigh
          run.areaLow := if high then s.run.areaLow else t.run.areaLow } ∧
        (high = true → ∀ i, i < 32 →
          t.run.areaHigh.getLsbD i = if bytes.getLsbD (i / 8) then v.getLsbD i else s.run.areaHigh.getLsbD i) ∧
        (high = false → ∀ i, i < 32 →
          t.run.areaLow.getLsbD i =
            if i < 12 then false else if bytes.getLsbD (i / 8) then v.getLsbD i else s.run.areaLow.getLsbD i)) ∧
    (∀ high, s.run.device ≠ .resetIdle → s.run.device ≠ .stopped → exec (.areaWrite high v bytes) s = .next s) ∧
    ∃ t, exec (.causeRead bytes) s = .next t ∧ t.run.causes = 0

/-- An abort of the granted request (R168, R181): FAULTED with reason LINK_ABORT and FAULT raised, no request granted, the journal
writer and the walker HALTED with their page, slip, flush point and link sources kept (R134, R153), the staging queue kept, every
frame in assembly cut without a record or a count (R51), baseline captures dropped (R10), and no other part of a lane changed: the keylock
readers of configured lanes run on too after an abort on the first LOADING past the delivery, which is log 36. A walker that was not
HALTED asks for a rewrite of the device status section (R163), which FAULTED never makes. Host memory holds what R134 and R153 allow. That
the journal writer's linger and recheck timers stop is log 24. -/
def Obligations.LinkAbort : Prop :=
  ∀ (s : State) (g : Grant), s.dma.granted = some g →
    ∃ t, exec .dmaAbort s = .next t ∧
      t.run = { s.run with device := .faulted, fault := .linkAbort, causes := s.run.causes ||| 0x40 } ∧
      t.dma = { s.dma with granted := none } ∧
      t.journal = { s.journal with state := .halted, linger := none, recheck := none } ∧
      t.walker = { s.walker with state := .halted, recheck := none } ∧
      t.staging = s.staging ∧ t.pending = s.pending ∧ Abandoned s t ∧
      t.unit = { s.unit with devRewrite := s.unit.devRewrite || decide (s.walker.state ≠ .halted) } ∧
      (∀ l, t.lane l = { s.lane l with
        kb.capture := none
        portA := (t.lane l).portA
        portB := (t.lane l).portB }) ∧
      (∀ l p, (t.lane l).port p =
        if ((s.lane l).port p).frame = .assembling then
          { (s.lane l).port p with frame := .discarding, mark := none, text := [], damaged := false, tooLong := false }
        else (s.lane l).port p)

/-- What leaves run control alone (R171, R174, R176, R178, R180 to R182): outside the resets no command moves the clock or the last
reset kind; the run count changes by RUN alone, the area base by a write to it alone, and a pending cause is lost by a read of CAUSE
alone; the commands that wait stay as they are. FAULTED is left by a reset alone: every other command that finds the device FAULTED with no
request granted leaves the device state and the fault reason, gets no request granted (R168), produces no record (R100), and stores
nothing in host memory. -/
def Obligations.RunControlKept : Prop :=
  (∀ (c : Instr) (s t : State), exec c s = .next t → isReset c = false →
    t.pending = s.pending ∧ t.run.clock = s.run.clock ∧ t.run.lastReset = s.run.lastReset ∧
    (c ≠ .run → t.run.runCount = s.run.runCount) ∧
    ((∀ h v b, c ≠ .areaWrite h v b) → t.run.areaLow = s.run.areaLow ∧ t.run.areaHigh = s.run.areaHigh) ∧
    ((∀ b, c ≠ .causeRead b) → ∀ i, s.run.causes.getLsbD i = true → t.run.causes.getLsbD i = true)) ∧
  (∀ (c : Instr) (s t : State), s.run.device = .faulted → s.dma.granted = none → exec c s = .next t → isReset c = false →
    t.run.device = .faulted ∧ t.run.fault = s.run.fault ∧ t.dma.granted = none ∧ t.staging.queue = s.staging.queue ∧
      t.hostMem = s.hostMem)

/-! ## The load and the settings (chapter 9) -/

/-- The read of the host part completes (R155 step 1, R157, R171). With format 1 and an area length of at least 4096 its fields are
clamped and the lane records are read next, from lane 0. Otherwise the load ends with the device FAULTED for ANCHOR_BAD and FAULT
raised (R181): no lane is configured, the enable mask and the staging queue stay as they are, the walker is HALTED, which asks for a
rewrite unless it was so already (R163), and nothing more is requested. That the journal writer stays as it was is log 23. -/
def Obligations.HostPartRead : Prop :=
  ∀ (s : State) (g : Grant) (data : List Byte), s.dma.granted = some g → g.req.purpose = .hostPartRead →
    s.run.device = .loading →
    (field1 data 0 = 1 ∧ 4096 ≤ (field4 data 0x0C).toNat →
      ∃ m t, exec (.hostPartReadComplete data) s = .next t ∧ SettleFrame m t ∧
        m = { s with
          hostMem := m.hostMem
          dma.granted := none
          unit := { s.unit with loadHost := loadHost data, loadRecords := [], load := .laneRecord 0 } } ∧
        (s.dma.waitS = none → t.asks .settings (readRequest (.laneSettingsRead 0) 0x80 128))) ∧
    (¬(field1 data 0 = 1 ∧ 4096 ≤ (field4 data 0x0C).toNat) →
      ∃ m t, exec (.hostPartReadComplete data) s = .next t ∧ SettleFrame m t ∧
        t.run = { s.run with device := .faulted, fault := .anchorBad, causes := s.run.causes ||| 0x40 } ∧
        t.dma.granted = none ∧
        m.walker = { s.walker with state := .halted, recheck := none } ∧ m.journal = s.journal ∧ m.staging = s.staging ∧
        m.unit = { s.unit with load := .idle, devRewrite := s.unit.devRewrite || decide (s.walker.state ≠ .halted) } ∧
        ∀ l, (m.lane l).configured = (s.lane l).configured ∧ (m.lane l).settings = (s.lane l).settings ∧
          (m.lane l).laneState = (s.lane l).laneState ∧ (m.lane l).drawer = (s.lane l).drawer)

/-- The effective host part (R116, R156, R157): every field lies in its range; a field without a default, and with a defaults selector of 0
every field, is taken as written, and outside its range becomes the nearest value in it; with any other selector the fields that have a
default take it; flow low is held 8 below the effective flow high; the enable mask is the seven causes' bits; the clamped flag is set just
when a field taken from the record was replaced. That bits of the enable mask that name no cause do not set it is log 37. -/
def Obligations.HostPartFields : Prop :=
  ∀ data : List Byte, let h := loadHost data
    let near (lo hi n : Nat) := max lo (min hi n)
    h.inRange ∧ h.selector = byteAt data 1 ∧ h.areaLength = (field4 data 0x0C).toNat ∧
    (∀ i, i < 7 → h.enable.getLsbD i = (byteAt data 0x0B).getLsbD i) ∧
    h.lanesInUse = near 1 8 (field1 data 2) ∧ h.pageCode = min 3 (field1 data 3) ∧ h.notice = near 1 16 (field1 data 4) ∧
    (h.selector ≠ 0 → h.urgent = 3 ∧ h.flowHigh = 64 ∧ h.flowLow = 32 ∧ h.lingerMs = 20 ∧ h.recheckMs = 10) ∧
    (h.selector = 0 →
      h.urgent = near 1 4 (field1 data 5) ∧ h.flowHigh = near 16 80 (field1 data 6) ∧
      h.flowLow = min (h.flowHigh - 8) (field1 data 7) ∧ h.lingerMs = min 1000 (field2 data 8) ∧
      h.recheckMs = field1 data 0x0A) ∧
    (h.selector = 0 → (h.clamped = false ↔
      h.lanesInUse = field1 data 2 ∧ h.pageCode = field1 data 3 ∧ h.notice = field1 data 4 ∧ h.urgent = field1 data 5 ∧
        h.flowHigh = field1 data 6 ∧ h.flowLow = field1 data 7 ∧ h.lingerMs = field2 data 8)) ∧
    (h.selector ≠ 0 → (h.clamped = false ↔
      h.lanesInUse = field1 data 2 ∧ h.pageCode = field1 data 3 ∧ h.notice = field1 data 4))

/-- The effective settings of a lane record (R41, R60, R76, R156, R158, R161): every field lies in its range; a field without a default, and
with a defaults selector of 0 every field, is taken as written, and outside its range becomes what its table gives: the nearest value in
the range, 1 for a flag that is not 0, 8N1 for a format above 2, and for an ajar fault below the effective alert the alert; with any other
selector the fields with a default take it; drawer fields held by the policy lock come from the store whole. The clamped flag is set just
when a field taken from the record was replaced. That bits of the wake mask that name no source do not set it is log 37. -/
def Obligations.LaneRecordFields : Prop :=
  ∀ (data : List Byte) (held : Option DrawerSettings), (∀ d, held = some d → d.inRange) → let c := (loadLane data held).1
    let near (lo hi n : Nat) := max lo (min hi n)
    let f1 := field1 data
    let f2 := field2 data
    c.inRange ∧ c.selector = byteAt data 2 ∧ (c.enable = true ↔ f1 0 ≠ 0) ∧
    (∀ i, i < 5 → c.wake.getLsbD i = (byteAt data 3).getLsbD i) ∧ (∀ i, i < 8 → c.inhibit.getLsbD i = (byteAt data 0x14).getLsbD i) ∧
    (∀ k : Key, c.repeatMap.getLsbD k.val = (byteAt data (0x18 + k.val / 8)).getLsbD (k.val % 8)) ∧
    (c.isolated = true ↔ f1 0x0B ≠ 0) ∧ c.idleMin = min 255 (f2 4) ∧ c.drive = near 1 8 (f1 6) ∧ c.sense = near 1 16 (f1 7) ∧
    c.dupWindowMs = min 2000 (f2 0x12) ∧
    (c.selector ≠ 0 → c.settleMs = 200 ∧ c.pass = 4 ∧ c.debounce = 3 ∧ c.typematicMs = 500 ∧ c.repeatMs = 100 ∧ c.rollover = 10 ∧
      c.portA.terminator = 0x0D ∧ c.portA.minLength = 4 ∧ c.portA.gapMs = 30 ∧ c.portA.toneMs = 80 ∧
      c.portB.terminator = 0x0D ∧ c.portB.minLength = 4 ∧ c.portB.gapMs = 30 ∧ c.portB.toneMs = 80) ∧
    (c.selector ≠ 0 → held = none → c.drawer = {
      enable := c.drawer.enable, kickMs := 60, confirmMs := 800, alertS := 60, faultS := 180, settleMs := 16, presenceS := 5
      lockoutCount := 3, lockoutMin := 15 }) ∧
    (c.selector = 0 →
      c.settleMs = near 50 1000 (f2 0x0C) ∧ c.pass = near 1 16 (f1 8) ∧ c.debounce = near 1 8 (f1 9) ∧
      c.rollover = near 2 16 (f1 0x0A) ∧ c.typematicMs = near 100 2000 (f2 0x0E) ∧ c.repeatMs = near 30 500 (f2 0x10)) ∧
    (∀ (p : PortSettings) (o : Nat), p = c.portA ∧ o = 0x28 ∨ p = c.portB ∧ o = 0x38 →
      (p.enable = true ↔ f1 o ≠ 0) ∧ p.rate = min 7 (f1 (o + 1)) ∧
      p.format = (if f1 (o + 2) = 1 then .f7e1 else if f1 (o + 2) = 2 then .f7o1 else .f8n1) ∧
      (p.markMode = true ↔ f1 (o + 4) ≠ 0) ∧ (p.check = true ↔ f1 (o + 7) ≠ 0) ∧ (p.hostConfirm = true ↔ f1 (o + 8) ≠ 0) ∧
      (p.reportDuplicates = true ↔ f1 (o + 9) ≠ 0) ∧
      (c.selector = 0 → p.terminator = byteAt data (o + 3) ∧ p.minLength = near 1 48 (f1 (o + 5)) ∧ p.gapMs = max 2 (f1 (o + 6)) ∧
        p.toneMs = near 20 500 (f2 (o + 10)))) ∧
    (held = none → (c.drawer.enable = true ↔ f1 1 ≠ 0) ∧
      (c.selector = 0 →
        c.drawer.kickMs = near 20 250 (f2 0x48) ∧ c.drawer.confirmMs = near 100 3000 (f2 0x4A) ∧
        c.drawer.alertS = near 5 600 (f2 0x4C) ∧ c.drawer.faultS = max c.drawer.alertS (near 5 3600 (f2 0x4E)) ∧
        c.drawer.settleMs = near 4 64 (f1 0x50) ∧ c.drawer.presenceS = min 60 (f1 0x51) ∧
        c.drawer.lockoutCount = (if f1 0x52 = 0 then 0 else near 2 8 (f1 0x52)) ∧ c.drawer.lockoutMin = near 1 120 (f1 0x53))) ∧
    (∀ d, held = some d → c.drawer = d) ∧
    (let flags (o : Nat) : Prop := f1 o ≤ 1 ∧ f1 (o + 2) ≤ 2 ∧ f1 (o + 4) ≤ 1 ∧ f1 (o + 7) ≤ 1 ∧ f1 (o + 8) ≤ 1 ∧ f1 (o + 9) ≤ 1
      let kept (p : PortSettings) (o : Nat) : Prop := flags o ∧ p.rate = f1 (o + 1) ∧
        (c.selector = 0 → p.minLength = f1 (o + 5) ∧ p.gapMs = f1 (o + 6) ∧ p.toneMs = f2 (o + 10))
      (loadLane data held).2 = false ↔
        f1 0 ≤ 1 ∧ f1 0x0B ≤ 1 ∧ c.idleMin = f2 4 ∧ c.drive = f1 6 ∧ c.sense = f1 7 ∧ c.dupWindowMs = f2 0x12 ∧
        (c.selector = 0 → c.settleMs = f2 0x0C ∧ c.pass = f1 8 ∧ c.debounce = f1 9 ∧ c.rollover = f1 0x0A ∧
          c.typematicMs = f2 0x0E ∧ c.repeatMs = f2 0x10) ∧
        kept c.portA 0x28 ∧ kept c.portB 0x38 ∧
        (held = none → f1 1 ≤ 1 ∧ (c.selector = 0 →
          c.drawer.kickMs = f2 0x48 ∧ c.drawer.confirmMs = f2 0x4A ∧ c.drawer.alertS = f2 0x4C ∧ c.drawer.faultS = f2 0x4E ∧
          c.drawer.settleMs = f1 0x50 ∧ c.drawer.presenceS = f1 0x51 ∧ c.drawer.lockoutCount = f1 0x52 ∧
          c.drawer.lockoutMin = f1 0x53)))

/-- A lane settings read of the load completes (R155 steps 2 and 3): while lanes in use remain the next record is read; the last one
brings the delivery: run control takes the enable mask (R171), every lane below lanes in use is configured with its settings, ACTIVE or
DISABLED by its enable (R1), its order enables set (R54), its lane sequence 0 (R19, R115), no last label (R74), its keylock position
kept (R12), and every other lane is unconfigured with its latch, history and store alone kept (R1, R95, R161). No record is staged
(R100). The lanes' rewrites and the device's are then all pending (R155 step 4). That the journal sequence, the unannounced count and the
record sequences are 0 from this moment on is log 22, what an unconfigured lane's pins, times and settings hold is logs 7, 8 and 9, and that
its clamped and drawer-held flags are cleared is log 48. -/
def Obligations.LaneSettingsRead : Prop :=
  ∀ (s : State) (g : Grant) (l : Lane) (data : List Byte), s.dma.granted = some g → g.req.purpose = .laneSettingsRead l →
    s.run.device = .loading →
    (l.val + 1 < s.unit.loadHost.lanesInUse →
      ∃ m t, exec (.laneSettingsReadComplete data) s = .next t ∧ SettleFrame m t ∧
        m = { s with
          hostMem := m.hostMem
          dma.granted := none
          unit := { s.unit with loadRecords := s.unit.loadRecords ++ [data], load := .laneRecord (l + 1) } } ∧
        (s.dma.waitS = none → t.asks .settings (readRequest (.laneSettingsRead (l + 1)) (laneRecordOffset (l + 1)) 128))) ∧
    (s.unit.loadHost.lanesInUse ≤ l.val + 1 →
      ∃ m t, exec (.laneSettingsReadComplete data) s = .next t ∧ SettleFrame m t ∧
        m.run = { s.run with enable := s.unit.loadHost.enable } ∧ m.staging = { s.staging with devSeq := 0 } ∧
        m.walker = s.walker ∧ m.journal.pageSeq = s.journal.pageSeq ∧ m.journal.lastClosed = s.journal.lastClosed ∧
        m.journal.journalSeq = 0 ∧ m.journal.unannounced = 0 ∧
        m.unit.host = s.unit.loadHost ∧ m.unit.devRewrite = true ∧ m.unit.policyLock = s.unit.policyLock ∧
        (∀ k : Lane, (m.lane k).rewrite = true) ∧
        (∀ (k : Lane) (rec : List Byte), (s.unit.loadRecords ++ [data])[k.val]? = some rec →
          let held := if s.unit.policyLock then (s.lane k).store else none
          let c := (loadLane rec held).1
          (m.lane k).configured = true ∧ (m.lane k).settings = c ∧ (m.lane k).clamped = (loadLane rec held).2 ∧
            (m.lane k).held = held.isSome ∧ (m.lane k).store = some c.drawer ∧
            (m.lane k).laneState = (if c.enable then .active else .disabled) ∧
            (m.lane k).portA.orderEnable = true ∧ (m.lane k).portB.orderEnable = true ∧ (m.lane k).seq = 0 ∧
            (m.lane k).acceptor.last = none ∧ (m.lane k).keylock.position = (s.lane k).keylock.position ∧
            (m.lane k).drawer.running = c.drawer.enable ∧ (m.lane k).drawer.latch = (s.lane k).drawer.latch ∧
            (m.lane k).drawer.history = (s.lane k).drawer.history ∧ (m.lane k).counters = (s.lane k).counters) ∧
        (∀ k : Lane, (s.unit.loadRecords ++ [data])[k.val]? = none →
          m.lane k = { LaneUnit.reset with
            rewrite := true
            store := (s.lane k).store
            keylock := { Keylock.reset with contacts := (s.lane k).keylock.contacts }
            drawer := { Drawer.reset with
              rawOpen := (s.lane k).drawer.rawOpen
              latch := (s.lane k).drawer.latch
              history := (s.lane k).drawer.history } }))

/-- A status write completes (R155 step 5, R164, R172): the last one of the load makes the device RUNNING; RUN_START and then, for
each configured lane with an enable, KEYLOCK with equal positions, KEY_IMAGE(BASELINE) when it is ACTIVE and the drawer's baseline
when drawer enable is 1 enter the queue as one entry (R18, R112), RUN_START with the device record sequence and each other with its lane and the lane's
sequence (R103), and the journal writer and the walker start their fetches (R117, R136). Every other status write only frees the engine.
That the journal writer's sequences and flags were cleared at the delivery, and none is here, is log 22. -/
def Obligations.StatusWritten : Prop :=
  ∀ (s : State) (g : Grant), s.dma.granted = some g → completes .statusWriteComplete g.req.purpose →
    (s.run.device = .loading → s.unit.load = .status [] →
      ∃ m t, exec .statusWriteComplete s = .next t ∧ SettleFrame m t ∧
        m.run = { s.run with device := .running } ∧ m.journal = { s.journal with state := .needPage } ∧
        m.walker = { s.walker with
          state := .fetching, stale := none, reread := false, rehead := false, recheck := none, isReread := false } ∧
        m.staging.devSeq = s.staging.devSeq + 1 ∧
        (let bodies (l : Lane) : List RecordBody :=
            let u := s.lane l
            if u.configured = true ∧ (u.settings.enable = true ∨ u.settings.drawer.enable = true) then
              [.keylock u.keylock.position u.keylock.position false] ++
                (if u.laneState = .active then [u.imageRecord .baseline] else []) ++
                (if u.settings.drawer.enable then [u.drawer.baseline] else [])
            else []
          let set : List StagedRecord := ⟨.runStart s.run.runCount, none, s.run.clock, s.staging.devSeq⟩ ::
            ([0, 1, 2, 3, 4, 5, 6, 7] : List Lane).flatMap fun l =>
              (bodies l).mapIdx fun i b => ⟨b, some l, s.run.clock, (s.lane l).seq + BitVec.ofNat 16 i⟩
          m.staging.queue = s.staging.queue ++ set ∧
          m.staging.hold = (s.staging.hold || decide (s.unit.host.flowHigh ≤ s.staging.queue.length + set.length)) ∧
          ∀ l, m.lane l = { s.lane l with seq := (s.lane l).seq + BitVec.ofNat 16 (bodies l).length }) ∧
        t.asks .journal (readRequest .pageLinkRead s.journal.linkOffset 4) ∧
        t.asks .walker (readRequest .orderLinkRead s.walker.linkOffset 4)) ∧
    (¬(s.run.device = .loading ∧ s.unit.load = .status []) →
      ∃ m t, exec .statusWriteComplete s = .next t ∧ SettleFrame m t ∧ m = { s with hostMem := m.hostMem, dma.granted := none })

/-- The orders at the settings unit (R147, R151, R160, R161, R163, R164). POLICY_LOCK sets the lock, is OK with the lock before as detail, and
has the device status section rewritten when that is a change. LANE_RELOAD is in hand with the walker WAITING, and an idle settings unit
reads the lane's settings record next, before any rewrite. The read's completion delivers the effective settings to the lane: a lane enable
of 0 makes it DISABLED, a lane enable of 1 on a DISABLED lane ACTIVE, and otherwise its state stays (R11), but that a change of the drawer's
condition may wake it (R7, R79; that starting and stopping the controller are such changes is log 26); the clamped and drawer-held flags and
the store are of this load; no other lane, no journal setting and no latch or history changes; the echo write is then to be made. The echo
write's completion answers the walker OK with the two flags and the lane state before and after, as the delivery found and left it (log 27),
and ends the reload. -/
def Obligations.ReloadSteps : Prop :=
  (∀ (s : State) (sl : Slip),
    (∀ l, s.hands (.laneReload l) sl →
      ∃ m t, exec (.laneReload l) s = .next t ∧ SettleFrame m t ∧
        m = { s with unit.reload := some (.read l), walker.state := .waiting, walker.stage := .waiting } ∧
        (s.dma.busy .settings = false → s.run.device = .running ∨ s.run.device = .stopping →
          t.asks .settings (readRequest (.reloadRead l) (laneRecordOffset l) 128))) ∧
    (s.hands .policyLock sl →
      AnsweredBy .policyLock s
        { s with unit.policyLock := true, unit.devRewrite := s.unit.devRewrite || decide (s.unit.policyLock = false) } sl
        (accepted s.unit.policyLock.toNat []))) ∧
  (∀ (s : State) (g : Grant) (l : Lane) (data : List Byte), s.dma.granted = some g → g.req.purpose = .reloadRead l →
    let held := if s.unit.policyLock then (s.lane l).store else none
    let c := (loadLane data held).1
    let old := (s.lane l).laneState
    ∃ m t, exec (.reloadSettingsReadComplete data) s = .next t ∧ SettleFrame m t ∧
      (m.lane l).settings = c ∧ (m.lane l).clamped = (loadLane data held).2 ∧ (m.lane l).held = held.isSome ∧
      (m.lane l).store = some c.drawer ∧ (m.lane l).configured = (s.lane l).configured ∧
      (c.enable = false → (m.lane l).laneState = .disabled) ∧
      (c.enable = true → old = .disabled ∨ old = .active → (m.lane l).laneState = .active) ∧
      (c.enable = true → old = .off → (m.lane l).laneState = .off) ∧
      (c.enable = true → old = .doze → (m.lane l).laneState = .doze ∨
        (m.lane l).laneState = .active ∧ (m.lane l).drawer.cond ≠ (s.lane l).drawer.cond ∧ c.wake.getLsbD 4 = true) ∧
      (m.lane l).drawer.latch = (s.lane l).drawer.latch ∧ (m.lane l).drawer.history = (s.lane l).drawer.history ∧
      (m.lane l).keylock.position = (s.lane l).keylock.position ∧
      (∀ k, k ≠ l → m.lane k = s.lane k) ∧
      m.unit = { s.unit with reload := some (.echo l (accepted ((loadLane data held).2.toNat + 2 * held.isSome.toNat)
        (byte1 (laneStateCode old) ++ byte1 (laneStateCode (m.lane l).laneState)))) } ∧
      m.journal = s.journal ∧ m.walker = s.walker) ∧
  (∀ (s : State) (g : Grant) (l : Lane) (a : Answer) (sl : Slip), s.dma.granted = some g → g.req.purpose = .reloadEcho l →
    s.unit.reload = some (.echo l a) → s.walker.current = some sl →
    ∃ m t, exec .reloadEchoWriteComplete s = .next t ∧ SettleFrame m t ∧
      m = { s with
        hostMem := m.hostMem
        dma := m.dma
        unit.reload := none
        walker.state := .working
        walker.stage := .body a } ∧
      t.asks .walker (writeRequest .slipBodyWrite (sl.offset + 0x1C) (a.body s.run.clock)))

/-- The delivery of a reload inside its lane (R10 to R12, R35 to R37, R58, R77, R87, R89, R94): what each part of the lane makes of the new
settings, and the records in R94's order. The lane state follows the lane enable; both ports are cut and restarted or turned OFF; the
keyboard starts a capture, takes the settings, begins any-key sensing again, or enters the mode its lane state and wake mask now call for;
the keylock reader and the drawer controller start, stop or go on. In RUNNING and STOPPING with room LANE_STATE(SETTINGS) comes first, then the CUT
records of ports A and B, which STOPPING does not produce (R100), then KEY_IMAGE(RELOAD) when image keys were removed or moved, and then the drawer's SETTINGS record, behind the
LANE_STATE(WAKE) that its change of condition may bring (log 26). That any-key sensing keeps its examination period and a new capture gets a
fresh pass period is log 15, and that an abandoned measurement compares the sensor is log 25. -/
def Obligations.ReloadDelivery : Prop :=
  ∀ (s : State) (g : Grant) (l : Lane) (data : List Byte), s.dma.granted = some g → g.req.purpose = .reloadRead l →
    let u := s.lane l
    let c := (loadLane data (if s.unit.policyLock then u.store else none)).1
    let st : LaneState := if c.enable = false then .disabled else if u.laneState = .disabled then .active else u.laneState
    let mode : ScanMode := match st with
      | .active => if u.configured then .scanning else .idle
      | .doze => if u.configured = true ∧ c.wake.getLsbD 0 = true then .anyKey else .idle
      | .off | .disabled => .idle
    let runs := u.configured && c.drawer.enable
    let tells := decide (u.drawer.running ≠ runs ∨
      runs = true ∧ u.drawer.running = true ∧ c.drawer.presenceS = 0 ∧ u.drawer.cond = .absent)
    let ports := fun p : Port => match p with | .a => c.portA | .b => c.portB
    ∃ m t, exec (.reloadSettingsReadComplete data) s = .next t ∧ SettleFrame m t ∧
      let v := m.lane l
      let wakes := decide (st = .doze ∧ v.drawer.cond ≠ u.drawer.cond ∧ c.wake.getLsbD 4 = true ∧
        (s.run.device = .running ∨ s.run.device = .stopping))
      let image := decide (st = u.laneState ∧ mode = .scanning ∧ u.kb.mode = .scanning ∧ u.kb.capture = none ∧ v.kb.image ≠ u.kb.image)
      v.laneState = (if wakes then .active else st) ∧
      (v.laneState = .active → v.idle = c.idlePeriod) ∧ (st = .disabled → u.laneState ≠ .disabled → v.idle = none) ∧
      (∀ p, v.port p = portAfter (u.port p) (ports p) u.configured st) ∧
      v.drawer = drawerAfter u.drawer c.drawer runs s.run.clock ∧
      v.keylock = keylockAfter u.keylock c.settleMs (u.configured && (c.enable || c.drawer.enable)) ∧
      (st ≠ u.laneState → st = .active → v.kb = { Keyboard.entered .scanning c.pass with capture := some c.debounce }) ∧
      (st ≠ u.laneState → st = .disabled → v.kb = if u.kb.mode = .idle then u.kb else Keyboard.entered .idle c.pass) ∧
      (wakes = true → u.configured = true → v.kb = Keyboard.entered .scanning c.pass) ∧
      (st = u.laneState → wakes = false →
        (u.kb.mode ≠ mode → v.kb = Keyboard.entered mode c.pass) ∧
        (u.kb.mode = mode → mode = .idle → v.kb = u.kb) ∧
        (u.kb.mode = mode → mode = .anyKey → v.kb = { u.kb with anyStage := .waitClear, anyCount := 0, detected := false }) ∧
        (u.kb.mode = mode → mode = .scanning → u.kb.capture ≠ none →
          v.kb = { Keyboard.entered .scanning c.pass with capture := some c.debounce }) ∧
        (u.kb.mode = mode → mode = .scanning → u.kb.capture = none → KeysRefitted u.kb v.kb u.settings c)) ∧
      (s.roomy l → u.configured = true → u.receiversOk →
        Produces s m l (
          (if st = u.laneState then [] else [.laneState st .settings]) ++
          (if u.portA.frame = .assembling then [.labelRefused .a (.cut u.portA.text.length)] else []) ++
          (if u.portB.frame = .assembling then [.labelRefused .b (.cut u.portB.text.length)] else []) ++
          (if image then [v.imageRecord .reload] else []) ++
          (if wakes then [.laneState .active (.wake .drawer)] else []) ++
          (if tells then [.drawer v.drawer.cond u.drawer.cond .settings v.drawer.latch v.drawer.ajarFault 0] else [])))

/-- The delivery of the load inside a configured lane (R1, R4, R12, R38, R54, R58, R77, R87, R89, R95, R96): as a reload, but that the lane is
ACTIVE or DISABLED by its enable whatever it was, that a scanner that is not SCANNING starts without a capture, that both order enables are
set, and that nothing is recorded or counted (R51, R100). A drawer that goes on keeps its condition, opened-at time, ajar timing and
kick. That an abandoned presence measurement compares the sensor is log 25, and that a controller that stops leaves its ajar stage NONE is
log 26. -/
def Obligations.LoadDelivery : Prop :=
  ∀ (s : State) (g : Grant) (l : Lane) (data : List Byte), s.dma.granted = some g → g.req.purpose = .laneSettingsRead l →
    s.run.device = .loading → s.unit.loadHost.lanesInUse ≤ l.val + 1 →
    ∃ m t, exec (.laneSettingsReadComplete data) s = .next t ∧ SettleFrame m t ∧ m.staging.queue = s.staging.queue ∧
      m.run.causes = s.run.causes ∧
      ∀ (k : Lane) (rec : List Byte), (s.unit.loadRecords ++ [data])[k.val]? = some rec →
        let u := s.lane k
        let v := m.lane k
        let c := (loadLane rec (if s.unit.policyLock then u.store else none)).1
        let st : LaneState := if c.enable then .active else .disabled
        let ports := fun p : Port => match p with | .a => c.portA | .b => c.portB
        v.idle = (if c.enable then c.idlePeriod else none) ∧
        (∀ p, v.port p = { portAfter (u.port p) (ports p) true st with orderEnable := true }) ∧
        v.drawer = drawerAfter u.drawer c.drawer c.drawer.enable s.run.clock ∧
        v.keylock = keylockAfter u.keylock c.settleMs (c.enable || c.drawer.enable) ∧
        (c.enable = false → v.kb = if u.kb.mode = .idle then u.kb else Keyboard.entered .idle c.pass) ∧
        (c.enable = true → u.kb.mode ≠ .scanning → v.kb = Keyboard.entered .scanning c.pass) ∧
        (c.enable = true → u.kb.mode = .scanning → KeysRefitted u.kb v.kb u.settings c) ∧
        v.noted = u.noted ∧ v.losses = u.losses

/-! ## The journal writer (chapters 6 and 7) -/

/-- A fetch of the journal writer: its link read (R119, R120, R123) and its header read (R120, R121, R125). A link of zero ends the fetch
STARVED without a chain fault. A nonzero link that is a multiple of 64 with its page within the area length is valid, and the header's
state field is read there; that the page lies within the anchor's span does not matter. Every other nonzero link is a chain fault, judged
before any header is read: BROKEN, CHAIN raised and the link recorded. A FREE page is opened: its offset, no units used and no record, the
open time now, the episode and the journal writer's stall ended, linger running when pages are unannounced. Any other page is stale:
STARVED with its offset recorded and the stall shown, STARVED raised when an episode begins. A NOTIFY or a REHEAD_PAGES that came meanwhile
starts a re-read at once (that the recheck timer does not restart is log 38). At the end of the drain the fetch ends HALTED and the device
STOPPED (R133): with a link of zero, which clears the stale page offset and the stall; with a bad link, which raises CHAIN and stays
recorded; with a page found, which is released; and with a stale page, which nothing records. That the episode ends there is log 17. -/
def Obligations.PageFetch : Prop :=
  (∀ (s : State) (g : Grant) (link : Word32), s.dma.granted = some g → g.req.purpose = .pageLinkRead →
    (link = 0 → s.drained = false → ∃ t, exec (.pageLinkReadComplete link) s = .next t ∧
      (s.journal.reread = false → s.journal.rehead = false →
        t.journal = { s.journal with
          state := .starved
          stale := none
          episode := true
          recheck := if s.journal.episode then s.journal.recheck else s.unit.host.recheckTimer }) ∧
      (s.journal.reread = true ∨ s.journal.rehead = true →
        t.journal.state = .needPage ∧ t.journal.reread = false ∧ t.journal.rehead = false ∧
          t.asks .journal (readRequest .pageLinkRead s.journal.linkOffset 4)) ∧
      (t.run.causes = if s.journal.episode then s.run.causes else s.run.causes ||| Cause.starved.bit) ∧
      t.run.device = s.run.device) ∧
    (link ≠ 0 → link.toNat % 64 = 0 ∧ link.toNat + pageSize s.unit.host.pageCode ≤ s.unit.host.areaLength →
      ∃ m t, exec (.pageLinkReadComplete link) s = .next t ∧ SettleFrame m t ∧
        m = { s with hostMem := m.hostMem, dma := m.dma } ∧ t.asks .journal (readRequest (.pageHeaderRead link) link 1)) ∧
    (link ≠ 0 → ¬(link.toNat % 64 = 0 ∧ link.toNat + pageSize s.unit.host.pageCode ≤ s.unit.host.areaLength) → s.drained = false →
      ∃ t, exec (.pageLinkReadComplete link) s = .next t ∧
        t.run = { s.run with causes := s.run.causes ||| Cause.chain.bit } ∧
        t.unit.stall = { offset := link, reason := .badPageLink, owner := .journal } ∧
        (s.journal.rehead = false → t.journal = { s.journal with
          state := .broken, stale := none, reread := false, rehead := false, episode := false, recheck := none }) ∧
        (s.journal.rehead = true →
          t.journal.state = .needPage ∧ t.asks .journal (readRequest .pageLinkRead s.journal.linkOffset 4))) ∧
    (s.drained = true →
      let halted (j : Journal) : Journal := { j with
        state := .halted, linger := none, recheck := none, episode := false, stale := none, reread := false, rehead := false }
      (link = 0 → ∃ t, exec (.pageLinkReadComplete link) s = .next t ∧ t.journal = halted s.journal ∧
        t.run = { s.run with device := .stopped, journalDone := true } ∧
        t.unit.stall = if s.unit.stall.owner = .journal then Stall.none else s.unit.stall) ∧
      (link ≠ 0 → ¬(link.toNat % 64 = 0 ∧ link.toNat + pageSize s.unit.host.pageCode ≤ s.unit.host.areaLength) →
        ∃ t, exec (.pageLinkReadComplete link) s = .next t ∧ t.journal = halted s.journal ∧
          t.run = { s.run with device := .stopped, journalDone := true, causes := s.run.causes ||| Cause.chain.bit } ∧
          t.unit.stall = { offset := link, reason := .badPageLink, owner := .journal }))) ∧
  (∀ (s : State) (g : Grant) (offset : Word32) (st : Byte), s.dma.granted = some g → g.req.purpose = .pageHeaderRead offset →
    (st = 0 → s.drained = false →
      ∃ m t, exec (.pageHeaderReadComplete st) s = .next t ∧ SettleFrame m t ∧
        m.journal = { s.journal with
          state := .filling
          page := some { offset := offset, used := 0, count := 0, firstSeq := none, openTime := s.run.clock, lanes := 0,
                         closing := none, closeTime := 0, lingerDue := false }
          stale := none
          reread := false
          rehead := false
          episode := false
          recheck := none
          linger := if s.journal.unannounced = 0 then none else s.unit.host.lingerTimer } ∧
        t.journal.state = .filling ∧ m.run = s.run ∧ m.staging = s.staging ∧
        m.unit.stall = (if s.unit.stall.owner = .journal then Stall.none else s.unit.stall)) ∧
    (st ≠ 0 → s.drained = false →
      ∃ t, exec (.pageHeaderReadComplete st) s = .next t ∧ t.journal.stale = some offset ∧ t.journal.episode = true ∧
        t.unit.stall = { offset := offset, reason := .stalePage, owner := .journal } ∧
        t.run.causes = (if s.journal.episode then s.run.causes else s.run.causes ||| Cause.starved.bit) ∧
        t.journal.reread = false ∧ t.journal.rehead = false ∧
        (if s.journal.reread = true ∨ s.journal.rehead = true then
          t.journal.state = .needPage ∧ t.asks .journal (readRequest .pageLinkRead s.journal.linkOffset 4)
        else t.journal.state = .starved)) ∧
    (s.drained = true → s.dma.waitJ = none →
      ∃ t, exec (.pageHeaderReadComplete st) s = .next t ∧ t.journal.state = .halted ∧
        (st = 0 → t.journal.page = none) ∧ t.journal.episode = false ∧ t.journal.stale = (if st = 0 then none else s.journal.stale) ∧
        t.run = { s.run with device := .stopped, journalDone := true } ∧ t.journal.fromAnchor = s.journal.fromAnchor ∧
        t.journal.lastClosed = s.journal.lastClosed))

/-- A record write completes (R104, R126): the head record leaves the queue and joins the page under the current journal sequence,
which advances; the units, the count, the first sequence, the lanes mask and linger follow. At the flow low mark or below, flow hold is
cleared first and then each lane with a pending loss, lowest first, stages GAP with its counts, which become 0, and KEY_IMAGE(RESYNC) when
class 0 was lost, with the clock and under the lane's own next sequences (R103, R106, R109); flow hold is then set again only if these
bring the fill to the flow high mark (R105, R110). The page closes with the first of URGENT, FLUSH and FULL that applies (R127, R129, R130), or LINGER when that is due
(R128; that it comes first is log 14), and the close begins with its header body (R131). -/
def Obligations.RecordWritten : Prop :=
  ∀ (s : State) (g : Grant) (r : StagedRecord) (rest : List StagedRecord) (page : OpenPage), s.dma.granted = some g →
    g.req.purpose = .recordWrite → s.staging.queue = r :: rest → s.journal.page = some page →
    let page' : OpenPage := { page with
      used := page.used + r.body.units
      count := page.count + 1
      firstSeq := some (page.firstSeq.getD s.journal.journalSeq)
      lanes := (match r.lane with
        | some l => page.lanes ||| BitVec.ofNat 8 (2 ^ l.val)
        | none => page.lanes) }
    let why := if page.lingerDue then some CloseReason.linger
      else if s.unit.host.urgent ≤ r.body.cls then some CloseReason.urgent
      else if s.journal.flush = .record 0 then some CloseReason.flush
      else if usableUnits s.unit.host.pageCode - page'.used < 2 then some CloseReason.full else none
    ∃ m t, exec .recordWriteComplete s = .next t ∧ SettleFrame m t ∧
      m.journal.journalSeq = s.journal.journalSeq + 1 ∧ m.journal.state = s.journal.state ∧
      m.journal.pageSeq = s.journal.pageSeq ∧ m.run = s.run ∧ m.walker = s.walker ∧
      m.journal.flush = (match s.journal.flush with | .record 0 => .page | .record (n + 1) => .record n | p => p) ∧
      m.journal.page = some { page' with
        closing := (if why.isSome then why else page.closing)
        closeTime := (if why.isSome then s.run.clock else page.closeTime)
        lingerDue := (if why.isSome then false else page.lingerDue) } ∧
      (∀ w, why = some w → ∃ q, t.asks .journal q ∧ HeaderBody page' w s.journal.pageSeq s.run.clock q) ∧
      m.journal.linger = (if why.isSome then none
        else if page.count = 0 ∧ s.journal.linger = none then s.unit.host.lingerTimer else s.journal.linger) ∧
      (s.unit.host.flowLow < rest.length → m.staging = { s.staging with queue := rest } ∧ ∀ l, m.lane l = s.lane l) ∧
      (rest.length ≤ s.unit.host.flowLow →
        let bodies (u : LaneUnit) : List RecordBody :=
          if ∀ i : Fin 4, u.losses[i] = 0 then [] else
            .gap u.losses[0] u.losses[1] u.losses[2] u.losses[3] :: if u.losses[0] = 0 then [] else [u.imageRecord .resync]
        let rs := allLanes.flatMap fun l => stamped l s.run.clock (s.lane l).seq (bodies (s.lane l))
        m.staging = { s.staging with
          queue := rest ++ rs, hold := decide (rs ≠ [] ∧ s.unit.host.flowHigh ≤ rest.length + rs.length) } ∧
        ∀ l, m.lane l = { s.lane l with
          losses := Vector.replicate 4 0, seq := (s.lane l).seq + BitVec.ofNat 16 (bodies (s.lane l)).length })

/-- The two writes of a close (R131, R132, R149). When the header body is written, the CLOSED marker is asked for. When the marker is
written, the page sequence advances, the page is the last closed one and the source of links, no page is open; JOURNAL is raised and the
unannounced count set to 0 when the notice count is reached or the reason is not FULL, and otherwise the count rises; a FLUSH whose point
the page holds is answered with the close reason, the offset and the page sequence; and the next fetch starts, but at the end of the
drain the journal writer is HALTED and the device STOPPED (R133, R173). -/
def Obligations.CloseWritten : Prop :=
  ∀ (s : State) (g : Grant) (page : OpenPage), s.dma.granted = some g → s.journal.page = some page →
    (g.req.purpose = .headerBodyWrite →
      ∃ m t, exec .headerBodyWriteComplete s = .next t ∧ SettleFrame m t ∧ m = { s with hostMem := m.hostMem, dma := m.dma } ∧
        t.asks .journal (writeRequest .closedMarkerWrite page.offset [1])) ∧
    (∀ why, g.req.purpose = .closedMarkerWrite → page.closing = some why →
      ∃ m t, exec .closedMarkerWriteComplete s = .next t ∧ SettleFrame m t ∧
        m.journal.pageSeq = s.journal.pageSeq + 1 ∧ m.journal.lastClosed = some page.offset ∧ m.journal.fromAnchor = false ∧
        m.journal.page = none ∧ m.journal.journalSeq = s.journal.journalSeq ∧ m.staging = s.staging ∧
        (if s.unit.host.notice ≤ s.journal.unannounced + 1 ∨ why ≠ .full then
          m.journal.unannounced = 0 ∧ m.run.causes = s.run.causes ||| Cause.journal.bit
        else m.journal.unannounced = s.journal.unannounced + 1 ∧ m.run.causes = s.run.causes) ∧
        (if s.drained then t.journal.state = .halted ∧ t.run.device = .stopped ∧ t.run.journalDone = true
        else t.journal.state = .needPage ∧ t.run.device = s.run.device ∧
          t.asks .journal (readRequest .pageLinkRead (page.offset + 0x1C) 4)) ∧
        (s.journal.flush = .page → m.journal.flush = .none ∧ ∀ sl, s.walker.current = some sl →
          t.walker = { s.walker with
            state := .working
            stage := .body (accepted why.code (byte4 page.offset ++ byte4 s.journal.pageSeq)) } ∧
          t.asks .walker (writeRequest .slipBodyWrite (sl.offset + 0x1C)
            ((accepted why.code (byte4 page.offset ++ byte4 s.journal.pageSeq)).body s.run.clock))) ∧
        (s.journal.flush ≠ .page → m.journal.flush = s.journal.flush ∧ t.walker = s.walker))

/-- The journal writer's and the walker's timers (R121, R128, R139). The linger timer on an open page without a close in flight: a page with
records closes with LINGER, at once or, with its write in flight, when that completes; with an empty page JOURNAL is raised and the
unannounced count set to 0; the timer stops. A recheck timer: a STARVED journal writer or a PARKED walker re-reads from its link source,
one with a fetch in flight sets its re-read pending flag, and both restart the timer. That a PARKED walker's re-read counts as leaving
PARKED and so asks for a rewrite of the device status section is the model's reading, log 19. An expiry that is not due does nothing
(log 2). -/
def Obligations.PageTimers : Prop :=
  (∀ (s : State) (page : OpenPage), s.journal.page = some page → page.closing = none →
    (s.journal.linger = some 0 → page.count = 0 →
      ∃ m t, exec .lingerExpiry s = .next t ∧ SettleFrame m t ∧
        m = { s with
          journal.unannounced := 0
          journal.linger := none
          run.causes := s.run.causes ||| Cause.journal.bit }) ∧
    (s.journal.linger = some 0 → page.count ≠ 0 → s.dma.busy .journal = true →
      ∃ m t, exec .lingerExpiry s = .next t ∧ SettleFrame m t ∧
        m = { s with journal.page := some { page with lingerDue := true }, journal.linger := none }) ∧
    (s.journal.linger = some 0 → page.count ≠ 0 → s.dma.busy .journal = false →
      ∃ m t, exec .lingerExpiry s = .next t ∧ SettleFrame m t ∧
        m = { s with
          dma := m.dma
          journal.page := some { page with closing := some .linger, closeTime := s.run.clock, lingerDue := false }
          journal.linger := none } ∧
        ∃ r, t.asks .journal r ∧ HeaderBody page .linger s.journal.pageSeq s.run.clock r) ∧
    (s.journal.linger ≠ some 0 → exec .lingerExpiry s = .next s)) ∧
  (∀ s : State,
    (s.journal.recheck = some 0 → s.journal.state = .starved →
      ∃ m t, exec .journalRecheckExpiry s = .next t ∧ SettleFrame m t ∧
        m = { s with dma := m.dma, journal.state := .needPage, journal.recheck := s.unit.host.recheckTimer } ∧
        t.asks .journal (readRequest .pageLinkRead s.journal.linkOffset 4)) ∧
    (s.journal.recheck = some 0 → s.journal.state = .needPage →
      ∃ m t, exec .journalRecheckExpiry s = .next t ∧ SettleFrame m t ∧
        m = { s with journal.reread := true, journal.recheck := s.unit.host.recheckTimer }) ∧
    (s.journal.recheck ≠ some 0 → exec .journalRecheckExpiry s = .next s) ∧
    (s.walker.recheck = some 0 → s.walker.state = .parked →
      ∃ m t, exec .walkerRecheckExpiry s = .next t ∧ SettleFrame m t ∧
        m = { s with
          dma := m.dma
          unit.devRewrite := true
          walker.state := .fetching
          walker.isReread := true
          walker.recheck := s.unit.host.recheckTimer } ∧
        t.asks .walker (readRequest .orderLinkRead s.walker.linkOffset 4)) ∧
    (s.walker.recheck = some 0 → s.walker.state = .fetching →
      ∃ m t, exec .walkerRecheckExpiry s = .next t ∧ SettleFrame m t ∧
        m = { s with walker.reread := true, walker.recheck := s.unit.host.recheckTimer }) ∧
    (s.walker.recheck ≠ some 0 → exec .walkerRecheckExpiry s = .next s))

/-- What the end of an event asks of the journal writer (R126, R127, R131, R133): `m` is the state that the event's own work leaves, and
`m.settle` what follows in the same event. FILLING with no close and no request of its own, the head record is written at byte 32 + 8 × units
used when it fits, and otherwise the page closes with FULL. At the end of the drain a page with records closes with STOP, one without is
released with nothing written to it (the engine holds what it held of the journal writer's), and a STARVED or BROKEN journal writer has no more to do: it is HALTED with its episode ended and
reports, the device is STOPPED and baseline captures are dropped (R10). In every other case the journal writer stays as it is. -/
def Obligations.EventEnd : Prop :=
  ∀ m : State,
    let t := m.settle
    let halted (j : Journal) : Prop := t.journal = { j with
        state := .halted, linger := none, recheck := none, episode := false, reread := false, rehead := false } ∧
      t.run = { m.run with device := .stopped, journalDone := true } ∧
      t.dma.busy .journal = m.dma.busy .journal ∧ ∀ l, (t.lane l).kb.capture = none
    let closes (page : OpenPage) (why : CloseReason) : Prop := t.run = m.run ∧
      t.journal = { m.journal with
        page := some { page with closing := some why, closeTime := m.run.clock, lingerDue := false }, linger := none } ∧
      ∃ q, t.asks .journal q ∧ HeaderBody page why m.journal.pageSeq m.run.clock q
    let stays : Prop := t.journal = m.journal ∧ t.run = m.run ∧ t.dma.busy .journal = m.dma.busy .journal
    (∀ page, m.journal.state = .filling → m.journal.page = some page → page.closing = none → m.dma.busy .journal = false →
      (∀ r rest, m.staging.queue = r :: rest →
        let left := usableUnits m.unit.host.pageCode - page.used
        (r.body.units ≤ left → t.journal = m.journal ∧ t.run = m.run ∧
          t.asks .journal (writeRequest .recordWrite (page.offset + BitVec.ofNat 32 (32 + 8 * page.used)) r.bytes)) ∧
        (left < r.body.units → closes page .full)) ∧
      (m.drainEnds → page.count ≠ 0 → closes page .stop) ∧
      (m.drainEnds → page.count = 0 → halted { m.journal with page := none }) ∧
      (m.staging.queue = [] → ¬m.drainEnds → stays)) ∧
    (m.journal.state = .starved ∨ m.journal.state = .broken → (m.drainEnds → halted m.journal) ∧ (¬m.drainEnds → stays)) ∧
    (m.journal.state = .filling → m.dma.busy .journal = true → stays) ∧
    (∀ page, m.journal.page = some page → page.closing.isSome = true → m.journal.state = .filling → stays) ∧
    (m.journal.state = .idle ∨ m.journal.state = .needPage ∨ m.journal.state = .halted → stays)

/-! ## The order walker (chapter 8) -/

/-- A fetch of the walker: its link read (R136 to R141, R152) and its slip read (R138 to R140, R143, R152). Outside STOPPING a link of zero
ends the fetch PARKED with no stale slip, the walker's stall cleared, the recheck timer started unless the fetch was a re-read, and a
re-read at once when a NOTIFY or a REHEAD_ORDERS came meanwhile (that the timer does not restart for it is log 38). A nonzero link that is a
multiple of 64 with its slip within the area length is valid, and the 64 bytes there are read; every other nonzero link is a chain fault:
BROKEN, CHAIN raised and the link recorded. A POSTED slip becomes the current slip, copied from its bytes; the fetch ends WORKING with the
walker's stall cleared, and the TAKEN marker is to be written to its state field. Any other slip is stale: PARKED with its offset recorded,
STALL raised and the stall shown unless it is the one recorded already. In STOPPING nothing is taken, raised or recorded, but for a chain
fault (log 18), which there too sets the stale slip offset to none (log 45), and the walker is HALTED with its re-read pending flag
cleared (log 46), its recheck timer stopped also where the fetch was a re-read (log 47), and has reported; that a link of zero clears its
stall there too is log 39. That the device status section is rewritten on
entry to PARKED for a stale slip recorded already is log 44. -/
def Obligations.OrderFetch : Prop :=
  (∀ (s : State) (g : Grant) (link : Word32), s.dma.granted = some g → g.req.purpose = .orderLinkRead →
    let again := s.walker.reread || s.walker.rehead
    (link = 0 → s.run.device ≠ .stopping →
      ∃ m t, exec (.orderLinkReadComplete link) s = .next t ∧ SettleFrame m t ∧ m.run = s.run ∧
        m.unit = { s.unit with
          devRewrite := true, stall := if s.unit.stall.owner = .walker then Stall.none else s.unit.stall } ∧
        m.walker = { s.walker with
          state := if again then .fetching else .parked
          isReread := again || s.walker.isReread
          stale := none
          reread := false
          rehead := false
          recheck := if s.walker.isReread then s.walker.recheck else s.unit.host.recheckTimer } ∧
        (again = true → t.asks .walker (readRequest .orderLinkRead s.walker.linkOffset 4))) ∧
    (link = 0 → s.run.device = .stopping →
      ∃ m t, exec (.orderLinkReadComplete link) s = .next t ∧ SettleFrame m t ∧
        m.run = { s.run with walkerDone := true } ∧
        m.unit.stall = (if s.unit.stall.owner = .walker then Stall.none else s.unit.stall) ∧
        m.walker = { s.walker with state := .halted, recheck := none, reread := false, rehead := false }) ∧
    (link ≠ 0 → link.toNat % 64 = 0 ∧ link.toNat + 64 ≤ s.unit.host.areaLength →
      ∃ m t, exec (.orderLinkReadComplete link) s = .next t ∧ SettleFrame m t ∧
        m = { s with hostMem := m.hostMem, dma := m.dma } ∧ t.asks .walker (readRequest (.slipRead link) link 64)) ∧
    (link ≠ 0 → ¬(link.toNat % 64 = 0 ∧ link.toNat + 64 ≤ s.unit.host.areaLength) →
      ∃ m t, exec (.orderLinkReadComplete link) s = .next t ∧ SettleFrame m t ∧
        m.run = { s.run with
          causes := s.run.causes ||| Cause.chain.bit
          walkerDone := s.run.walkerDone || decide (s.run.device = .stopping) } ∧
        m.unit.stall = { offset := link, reason := .badSlipLink, owner := .walker } ∧
        (if s.run.device = .stopping then
          m.walker = { s.walker with state := .halted, stale := none, reread := false, rehead := false, recheck := none }
        else if s.walker.rehead then
          m.walker.state = .fetching ∧ t.asks .walker (readRequest .orderLinkRead s.walker.linkOffset 4)
        else m.walker = { s.walker with state := .broken, stale := none, reread := false, rehead := false, recheck := none }))) ∧
  (∀ (s : State) (g : Grant) (o : Word32) (data : List Byte), s.dma.granted = some g → g.req.purpose = .slipRead o →
    (byteAt data 0 = 1 → s.run.device ≠ .stopping →
      ∃ m t sl, exec (.slipReadComplete data) s = .next t ∧ SettleFrame m t ∧ m.run = s.run ∧
        m.walker = { s.walker with
          state := .working
          current := some sl
          stage := .taking
          stale := none
          reread := false
          rehead := false
          recheck := none } ∧
        sl.offset = o ∧ sl.kind = byteAt data 1 ∧ sl.lane = byteAt data 2 ∧ sl.flags = byteAt data 3 ∧ sl.tag = field4 data 4 ∧
        sl.params.length = 16 ∧ (∀ i, i < 16 → byteAt sl.params i = byteAt data (0x0C + i)) ∧
        m.unit.stall = (if s.unit.stall.owner = .walker then Stall.none else s.unit.stall) ∧
        t.asks .walker (writeRequest .takenWrite o [2])) ∧
    (byteAt data 0 ≠ 1 → s.run.device ≠ .stopping →
      ∃ m t, exec (.slipReadComplete data) s = .next t ∧ SettleFrame m t ∧
        m.walker.stale = some o ∧ m.walker.reread = false ∧ m.walker.rehead = false ∧ m.walker.current = s.walker.current ∧
        (if s.walker.stale = some o then m.run = s.run ∧ m.unit.stall = s.unit.stall
        else m.run = { s.run with causes := s.run.causes ||| Cause.stall.bit } ∧
          m.unit.stall = { offset := o, reason := .staleSlip, owner := .walker }) ∧
        m.walker.recheck = (if s.walker.isReread then s.walker.recheck else s.unit.host.recheckTimer) ∧
        (if s.walker.reread = true ∨ s.walker.rehead = true then
          m.walker.state = .fetching ∧ t.asks .walker (readRequest .orderLinkRead s.walker.linkOffset 4)
        else m.walker.state = .parked)) ∧
    (s.run.device = .stopping →
      ∃ m t, exec (.slipReadComplete data) s = .next t ∧ SettleFrame m t ∧
        m.run = { s.run with walkerDone := true } ∧ m.unit.stall = s.unit.stall ∧
        m.walker = { s.walker with state := .halted, recheck := none, reread := false, rehead := false }))

/-- The three writes of a slip (R143, R144, R152). When TAKEN is written, the slip-level checks come in order: a kind of 0 or above 12 is
BAD_KIND with the kind; of kinds 1 to 9 a lane number at or above lanes in use is BAD_LANE with the lane; a parameter out of its range is
BAD_PARAM with its index, and a refused slip has its body write asked for at once; a slip that passes is handed to its owner, who takes the
order at its own command (log 3). When the body is written, the state is: DONE for the outcome OK, REFUSED for any other. When the state is
written, the slip is finished: it is the last finished slip and the source of links, ORDER is raised just when its notify flag is set, the
device status section is to be rewritten, and the walker fetches from the slip's next offset field, but in STOPPING it is HALTED, with its
re-read pending flag cleared (log 46), and has reported. The body write is 28 bytes, for 0x1C to 0x37 of the slip: the outcome code, 0 in
byte 0x1D, the detail, the finish time, and the 20 bytes of the result, 0 in each that the order does not use (R185); a refusal has a result
of zeros. The fields of a result are little-endian, a bitmap has bit 0 of its first byte for bit 0, and the outcome codes and the codes of
lane states, positions, conditions and close reasons in details and results are those of chapter 11. -/
def Obligations.SlipWrites : Prop :=
  (∀ (s : State) (g : Grant) (sl : Slip), s.dma.granted = some g → g.req.purpose = .takenWrite → s.walker.current = some sl →
    let k := sl.kind.toNat
    let p0 := field1 sl.params 0
    let p1 := field1 sl.params 1
    let refused (o : SlipOutcome) (n : Nat) : Prop := ∃ e, e = { s with hostMem := e.hostMem } ∧
      AnsweredBy .takenWriteComplete s e sl (refusal o n)
    let passed (o : Order) : Prop := ∃ m t, exec .takenWriteComplete s = .next t ∧ SettleFrame m t ∧
      m = { s with hostMem := m.hostMem, dma.granted := none, walker.stage := .handed o }
    (k = 0 ∨ 12 < k → refused .badKind k) ∧
    (1 ≤ k → k ≤ 9 → s.unit.host.lanesInUse ≤ sl.lane.toNat → refused .badLane sl.lane.toNat) ∧
    (∀ l : Lane, l.val = sl.lane.toNat → l.val < s.unit.host.lanesInUse →
      (k = 1 → passed (.drawerKick l)) ∧ (k = 2 → passed (.drawerLockout l)) ∧ (k = 3 → passed (.drawerRelease l)) ∧
      (k = 4 ∨ k = 5 → 1 < p0 → refused .badParam 0) ∧
      (k = 4 ∨ k = 5 → p0 ≤ 1 → 1 < p1 → refused .badParam 1) ∧
      (k = 4 → p0 ≤ 1 → p1 ≤ 1 → passed (.scannerSet l (if p0 = 0 then .a else .b) (decide (p1 = 1)))) ∧
      (k = 5 → p0 ≤ 1 → p1 ≤ 1 → passed (.scanConfirm l (if p0 = 0 then .a else .b) (decide (p1 = 1)))) ∧
      (k = 6 → passed (.keyImageRead l)) ∧ (k = 7 → passed (.laneReload l)) ∧
      (k = 8 → (p0 = 1 → passed (.laneState l .active)) ∧ (p0 = 2 → passed (.laneState l .doze)) ∧
        (p0 = 3 → passed (.laneState l .off)) ∧ (p0 = 0 ∨ 3 < p0 → refused .badParam 0)) ∧
      (k = 9 → p0 ≤ 1 → passed (.countersRead l (decide (p0 = 1)))) ∧ (k = 9 → 1 < p0 → refused .badParam 0)) ∧
    (k = 10 → passed .flush) ∧ (k = 11 → passed .policyLock) ∧ (k = 12 → passed (.journalMark sl.tag))) ∧
  (∀ (s : State) (g : Grant) (sl : Slip), s.dma.granted = some g → s.walker.current = some sl →
    (∀ a, g.req.purpose = .slipBodyWrite → s.walker.stage = .body a →
      ∃ m t, exec .slipBodyWriteComplete s = .next t ∧ SettleFrame m t ∧
        m = { s with hostMem := m.hostMem, dma := m.dma, walker.stage := .finish } ∧
        t.asks .walker (writeRequest .slipStateWrite sl.offset [if a.outcome = .ok then 3 else 4])) ∧
    (g.req.purpose = .slipStateWrite →
      ∃ m t, exec .slipStateWriteComplete s = .next t ∧ SettleFrame m t ∧
        m.run = { s.run with
          causes := if sl.flags.getLsbD 0 then s.run.causes ||| Cause.order.bit else s.run.causes
          walkerDone := s.run.walkerDone || decide (s.run.device = .stopping) } ∧
        m.unit = { s.unit with devRewrite := true } ∧
        (if s.run.device = .stopping then
          m.walker = { s.walker with
            state := .halted, fromAnchor := false, lastFinished := some sl.offset, current := none, stage := .none,
            recheck := none, reread := false, rehead := false }
        else
          m.walker = { s.walker with
            state := .fetching, fromAnchor := false, lastFinished := some sl.offset, current := none, stage := .none,
            isReread := false } ∧
          t.asks .walker (readRequest .orderLinkRead (sl.offset + 8) 4)))) ∧
  (∀ (a : Answer) (finish : Word32),
    let d := a.body finish
    d.length = 28 ∧
    field1 d 0 = (match a.outcome with
      | .ok => 0 | .badKind => 1 | .badLane => 2 | .badParam => 3 | .laneOff => 4 | .laneMode => 5 | .keylock => 6
      | .drawerBusy => 7 | .drawerLocked => 8 | .drawerAbsent => 9 | .drawerDisabled => 10 | .portOff => 11) ∧
    byteAt d 1 = 0 ∧ field2 d 2 = a.detail.toNat ∧ field4 d 4 = finish ∧
    (∀ i, i < 20 → byteAt d (8 + i) = if i < a.result.length then byteAt a.result i else 0)) ∧
  (∀ (o : SlipOutcome) (n : Nat) (r : List Byte),
    refusal o n = { outcome := o, detail := BitVec.ofNat 16 n, result := [] } ∧
    accepted n r = { outcome := .ok, detail := BitVec.ofNat 16 n, result := r }) ∧
  (∀ (n : Nat) (w : Word32) (v : BitVec 128),
    byte1 n = [BitVec.ofNat 8 n] ∧ (byte4 w).length = 4 ∧ field4 (byte4 w) 0 = w ∧
    (maskBytes 16 v).length = 16 ∧ ∀ i, i < 128 → (byteAt (maskBytes 16 v) (i / 8)).getLsbD (i % 8) = v.getLsbD i) ∧
  (laneStateCode .disabled = 0 ∧ laneStateCode .active = 1 ∧ laneStateCode .doze = 2 ∧ laneStateCode .off = 3 ∧
    positionCode .lock = 0 ∧ positionCode .register = 1 ∧ positionCode .manager = 2 ∧ positionCode .service = 3 ∧
    Condition.closed.code = 0 ∧ Condition.kicking.code = 1 ∧ Condition.isOpen.code = 2 ∧ Condition.ajar.code = 3 ∧
    Condition.forced.code = 4 ∧ Condition.jammed.code = 5 ∧ Condition.absent.code = 6 ∧
    CloseReason.full.code = 1 ∧ CloseReason.linger.code = 2 ∧ CloseReason.urgent.code = 3 ∧ CloseReason.flush.code = 4 ∧
    CloseReason.stop.code = 5)

/-- An order that the walker has not handed on changes nothing (that its own command stands for the moment its owner takes it is log
3): the twelve orders, with every operand. -/
def Obligations.OrdersWhenHanded : Prop :=
  ∀ (s : State) (l : Lane) (p : Port) (b : Bool) (y : Target) (tag : Word32),
    (s.walker.handed ≠ some (.drawerKick l) → exec (.drawerKick l) s = .next s) ∧
    (s.walker.handed ≠ some (.drawerLockout l) → exec (.drawerLockout l) s = .next s) ∧
    (s.walker.handed ≠ some (.drawerRelease l) → exec (.drawerRelease l) s = .next s) ∧
    (s.walker.handed ≠ some (.scannerSet l p b) → exec (.scannerSet l p b) s = .next s) ∧
    (s.walker.handed ≠ some (.scanConfirm l p b) → exec (.scanConfirm l p b) s = .next s) ∧
    (s.walker.handed ≠ some (.keyImageRead l) → exec (.keyImageRead l) s = .next s) ∧
    (s.walker.handed ≠ some (.laneReload l) → exec (.laneReload l) s = .next s) ∧
    (s.walker.handed ≠ some (.laneState l y) → exec (.laneState l y) s = .next s) ∧
    (s.walker.handed ≠ some (.countersRead l b) → exec (.countersRead l b) s = .next s) ∧
    (s.walker.handed ≠ some .flush → exec .flush s = .next s) ∧
    (s.walker.handed ≠ some .policyLock → exec .policyLock s = .next s) ∧
    (s.walker.handed ≠ some (.journalMark tag) → exec (.journalMark tag) s = .next s)

/-! ## The orders (chapter 8.3) -/

/-- DRAWER_KICK (R80, R90): the first matching case of R90 refuses it, and nothing but the walker changes. Otherwise the drawer is KICKING
with the kick output on, the pulse and confirm timers started and the kick's time kept; a dozing lane may wake (R79), whose records come
first; KICKS is counted; the DRAWER record carries the pulse in ticks; and the answer is OK with the condition before and the two times in ticks. -/
def Obligations.DrawerKick : Prop :=
  ∀ (s : State) (l : Lane) (sl : Slip), s.hands (.drawerKick l) sl →
    let u := s.lane l
    let c := u.settings.drawer
    let d := u.drawer
    let why : Option (SlipOutcome × Nat) :=
      if u.laneState = .disabled ∨ u.laneState = .off then some (.laneOff, laneStateCode u.laneState)
      else if c.enable = false then some (.drawerDisabled, 0)
      else if u.keylock.position = .lock then some (.laneMode, 0)
      else if d.latch = true then some (.drawerLocked, d.history.length)
      else if d.cond = .absent then some (.drawerAbsent, d.failCount)
      else if d.cond ≠ .closed ∧ d.cond ≠ .jammed then some (.drawerBusy, d.cond.code)
      else none
    (∀ o n, why = some (o, n) → AnsweredBy (.drawerKick l) s s sl (refusal o n)) ∧
    (why = none →
      ∃ e, AnsweredBy (.drawerKick l) s e sl
          (accepted d.cond.code (byte4 (word (msTicks c.kickMs)) ++ byte4 (word (msTicks c.confirmMs)))) ∧
        LaneFrame (only l) s e ∧
        (e.lane l).drawer = { d with
          cond := .kicking
          kickOut := true
          pulse := some (msTicks c.kickMs)
          confirm := some (msTicks c.confirmMs)
          confirmTicks := msTicks c.confirmMs
          kickStart := s.run.clock } ∧
        (e.lane l).rewrite = true ∧ WokenBy s e l .drawer ∧ Counted s e l .kicks ∧
        (s.roomy l → Produces s e l
          (s.wakeRecords l .drawer ++ [.drawer .kicking d.cond .order d.latch d.ajarFault (word (msTicks c.kickMs))])))

/-- DRAWER_LOCKOUT and DRAWER_RELEASE (R92, R93). LOCKOUT on a drawer whose latch is set is OK with detail 1 and changes nothing; otherwise
it sets the latch, ends a kick in progress with the drawer CLOSED, which may wake a dozing lane (R79), and is OK with detail 0 and the condition after. RELEASE is refused
KEYLOCK at LOCK and REGISTER; at MANAGER and SERVICE it clears the latch and the history, with a record only when there was something to
clear, and is OK with the latch before in bit 0 of the detail, the history length in the bits from 8, and the condition. -/
def Obligations.LatchOrders : Prop :=
  ∀ (s : State) (l : Lane) (sl : Slip),
    let u := s.lane l
    let d := u.drawer
    (s.hands (.drawerLockout l) sl → d.latch = true → AnsweredBy (.drawerLockout l) s s sl (accepted 1 (byte1 d.cond.code))) ∧
    (s.hands (.drawerLockout l) sl → d.latch = false →
      let new := if d.cond = .kicking then Condition.closed else d.cond
      ∃ e, AnsweredBy (.drawerLockout l) s e sl (accepted 0 (byte1 new.code)) ∧ LaneFrame (only l) s e ∧
        (e.lane l).drawer = (if d.cond = .kicking then
            { d with latch := true, cond := .closed, kickOut := false, pulse := none, confirm := none }
          else { d with latch := true }) ∧
        (e.lane l).rewrite = true ∧ (if d.cond = .kicking then WokenBy s e l .drawer else LaneStays s e l) ∧
        (s.roomy l → Produces s e l
          ((if d.cond = .kicking then s.wakeRecords l .drawer else []) ++ [.drawer new d.cond .order true d.ajarFault 0]))) ∧
    (s.hands (.drawerRelease l) sl → u.keylock.position = .lock ∨ u.keylock.position = .register →
      AnsweredBy (.drawerRelease l) s s sl (refusal .keylock (positionCode u.keylock.position))) ∧
    (s.hands (.drawerRelease l) sl → u.keylock.position = .manager ∨ u.keylock.position = .service →
      ∃ e, AnsweredBy (.drawerRelease l) s e sl
          (accepted (d.latch.toNat + 256 * d.history.length) (byte1 d.cond.code)) ∧
        LaneFrame (only l) s e ∧ (e.lane l).drawer = { d with latch := false, history := [] } ∧
        (d.latch = false → d.history = [] → e = s) ∧
        (d.latch = true ∨ d.history ≠ [] → (e.lane l).rewrite = true ∧ LaneStays s e l ∧
          (s.roomy l → Produces s e l [.drawer d.cond d.cond .release false d.ajarFault (word d.history.length)])))

/-- SCANNER_SET and SCAN_CONFIRM (R54, R57). Setting a port's order enable is refused PORT_OFF when the port is disabled by its settings.
Clearing it cuts a frame in assembly (R50, R51) and stops a pattern (R55). Both are OK with the flag before. SCAN_CONFIRM is refused
LANE_OFF on an OFF or DISABLED lane and PORT_OFF on a port that either enable turns off; otherwise the pattern starts, in the place of any
other, and the answer has 1 when one was replaced and T in ticks. -/
def Obligations.ScannerOrders : Prop :=
  ∀ (s : State) (l : Lane) (p : Port) (b : Bool) (sl : Slip),
    let u := s.lane l
    let c := u.portSettings p
    let q := u.port p
    (s.hands (.scannerSet l p true) sl → c.enable = false → AnsweredBy (.scannerSet l p true) s s sl (refusal .portOff 0)) ∧
    (s.hands (.scannerSet l p true) sl → c.enable = true →
      AnsweredBy (.scannerSet l p true) s (s.modPort l p fun q => { q with orderEnable := true }) sl
        (accepted q.orderEnable.toNat [])) ∧
    (s.hands (.scannerSet l p false) sl →
      ∃ e, AnsweredBy (.scannerSet l p false) s e sl (accepted q.orderEnable.toNat []) ∧ LaneFrame (only l) s e ∧
        (e.lane l).port p = (if q.frame = .assembling then
            { q with orderEnable := false, toneOn := false, tone := none, frame := .discarding, mark := none, text := [],
                     damaged := false, tooLong := false }
          else { q with orderEnable := false, toneOn := false, tone := none }) ∧
        (q.frame = .assembling → s.run.device = .running ∨ s.run.device = .stopping → Counted s e l .labelsRefused) ∧
        (q.frame = .assembling → s.roomy l → Produces s e l [.labelRefused p (.cut q.text.length)]) ∧
        (q.frame ≠ .assembling → e.staging = s.staging ∧ (e.lane l).counters = u.counters)) ∧
    (s.hands (.scanConfirm l p b) sl → u.laneState = .off ∨ u.laneState = .disabled →
      AnsweredBy (.scanConfirm l p b) s s sl (refusal .laneOff (laneStateCode u.laneState))) ∧
    (s.hands (.scanConfirm l p b) sl → u.laneState = .active ∨ u.laneState = .doze → c.enable = false ∨ q.orderEnable = false →
      AnsweredBy (.scanConfirm l p b) s s sl (refusal .portOff 0)) ∧
    (s.hands (.scanConfirm l p b) sl → u.laneState = .active ∨ u.laneState = .doze → c.enable = true → q.orderEnable = true →
      AnsweredBy (.scanConfirm l p b) s
        (s.modPort l p fun q => { q with
          toneOn := true, tone := some { bad := b, step := 0, period := msTicks c.toneMs, left := msTicks c.toneMs } }) sl
        (accepted q.tone.isSome.toNat (byte4 (word (msTicks c.toneMs)))))

/-- KEY_IMAGE_READ (R146), in every lane state and keylock position: OK with the image's length, its bitmap and the two lengths, and
KEY_IMAGE(READ) with the same image, produced in RUNNING and in STOPPING while a place is free; the keyboard stays. Outside SCANNING the
bitmap is empty and the lengths are 0 (nothing is tracked there, which every step keeps). -/
def Obligations.KeyImageRead : Prop :=
  ∀ (s : State) (l : Lane) (sl : Slip), s.hands (.keyImageRead l) sl →
    let u := s.lane l
    ∃ (e : State) (bm : BitVec 128), AnsweredBy (.keyImageRead l) s e sl
        (accepted u.kb.image.length (maskBytes 16 bm ++ byte1 u.kb.image.length ++ byte1 u.kb.blocked.length)) ∧
      (∀ k : Key, bm.getLsbD k.val = decide (k ∈ u.kb.image)) ∧ LaneFrame (only l) s e ∧ (e.lane l).kb = u.kb ∧
      (s.run.device = .running ∨ s.run.device = .stopping → s.staging.queue.length < 96 →
        Produces s e l [.keyImage .read bm u.kb.image.length u.kb.blocked.length]) ∧
      (u.keysOk → u.kb.mode ≠ .scanning → bm = 0 ∧ u.kb.image.length = 0 ∧ u.kb.blocked.length = 0)

/-- The lane counters (R148, R165, R166). A count moves one counter by one, modulo 65536, unless it is inhibited; the count that brings it to
49152 with its high-noted flag clear sets the flag, raises STATS and asks for the lane's rewrite, and nothing else moves. COUNTERS_READ
returns the eight counters, 2 bytes each in counter order, with the high-noted flags as detail, and offers no record; only with the clear
flag are the counters and the flags then 0, and a change of the flags is to be rewritten (R162). -/
def Obligations.LaneCounters : Prop :=
  (∀ (s : State) (l : Lane) (c : Counter),
    let u := s.lane l
    let i := c.index
    let counted := u.counters.set i.val (u.counters[i] + 1)
    let high := u.counters[i].toNat + 1 = 49152 ∧ u.noted.getLsbD i.val = false
    (u.settings.inhibit.getLsbD i.val = true → s.count l c = s) ∧
    (u.settings.inhibit.getLsbD i.val = false → ¬high → s.count l c = s.setLane l { u with counters := counted }) ∧
    (u.settings.inhibit.getLsbD i.val = false → high →
      ∃ n : BitVec 8, (∀ j, j < 8 → n.getLsbD j = (u.noted.getLsbD j || decide (j = i.val))) ∧
        s.count l c = { s.setLane l { u with counters := counted, noted := n, rewrite := true } with
          run.causes := s.run.causes ||| Cause.stats.bit })) ∧
  (∀ (s : State) (l : Lane) (sl : Slip) (clear : Bool), s.hands (.countersRead l clear) sl →
    let u := s.lane l
    ∃ (e : State) (res : List Byte), AnsweredBy (.countersRead l clear) s e sl (accepted u.noted.toNat res) ∧
      res.length = 16 ∧ (∀ i : Fin 8, field2 res (2 * i.val) = (u.counters[i]).toNat) ∧
      (clear = false → e = s) ∧
      (clear = true → e = s.setLane l { u with
        counters := Vector.replicate 8 0, noted := 0, rewrite := u.rewrite || decide (u.noted ≠ 0) }))

/-- Changes of lane state by order and by the idle timer (R2 to R5, R8 to R10, R21, R42, R50, R51). LANE_STATE on a DISABLED lane is refused
LANE_OFF; a target that the lane has already is OK and changes nothing; any other is entered, with a baseline capture of D passes from OFF
to ACTIVE, and the answer is OK with the state before. Where the change turns a receiver OFF its frame in ASSEMBLING is cut and counted,
and with room LANE_STATE(ORDER) stands ahead of the CUT records of port A and then B, which RUNNING alone produces. The idle timer of an
ACTIVE lane in RUNNING or STOPPING puts it to DOZE with LANE_STATE(IDLE); one that is not due does nothing (log 2). The scanner enters the
mode the new state calls for with nothing tracked, unless it has it already. -/
def Obligations.LaneStateChanges : Prop :=
  ∀ (s : State) (l : Lane),
    let u := s.lane l
    (∀ (y : Target) (sl : Slip), s.hands (.laneState l y) sl →
      let new : LaneState := match y with | .active => .active | .doze => .doze | .off => .off
      (u.laneState = .disabled → AnsweredBy (.laneState l y) s s sl (refusal .laneOff 0)) ∧
      (u.laneState = new → AnsweredBy (.laneState l y) s s sl (accepted (laneStateCode u.laneState) [])) ∧
      (u.laneState ≠ .disabled → u.laneState ≠ new →
        ∃ e, AnsweredBy (.laneState l y) s e sl (accepted (laneStateCode u.laneState) []) ∧ LaneFrame (only l) s e ∧
          LaneChange s e l new ∧ (s.roomy l → Produces s e l (u.changeRecords new .order)) ∧
          (e.lane l).kb = if u.laneState = .off ∧ new = .active then
              { Keyboard.entered .scanning u.settings.pass with capture := some u.settings.debounce }
            else u.kbIn new)) ∧
    (u.idle = some 0 → u.laneState = .active → s.run.device = .running ∨ s.run.device = .stopping →
      ∃ m t, exec (.idleTimerExpiry l) s = .next t ∧ SettleFrame m t ∧ LaneFrame (only l) s m ∧
        LaneChange s m l .doze ∧ (s.roomy l → Produces s m l (u.changeRecords .doze .idle)) ∧ (m.lane l).kb = u.kbIn .doze) ∧
    (u.idle ≠ some 0 → exec (.idleTimerExpiry l) s = .next s)

/-- FLUSH (the flush point is R130's, in 7.4; R149). With records waiting the flush point is the last of them, and the walker waits; with none waiting and an open page
with records the page closes with FLUSH and the walker waits for the close; a close in flight is waited for; and with nothing to flush the
answer is OK with detail 0 at once. -/
def Obligations.FlushOrder : Prop :=
  ∀ (s : State) (sl : Slip), s.hands .flush sl →
    (∀ r rest, s.staging.queue = r :: rest →
      ∃ m t, exec .flush s = .next t ∧ SettleFrame m t ∧
        m = { s with journal.flush := .record rest.length, walker.state := .waiting, walker.stage := .waiting }) ∧
    (s.staging.queue = [] → s.journal.page = none → AnsweredBy .flush s s sl (accepted 0 [])) ∧
    (∀ page, s.staging.queue = [] → s.journal.page = some page → page.closing = none → page.count = 0 →
      AnsweredBy .flush s s sl (accepted 0 [])) ∧
    (∀ page, s.staging.queue = [] → s.journal.page = some page → page.closing.isSome = true →
      ∃ m t, exec .flush s = .next t ∧ SettleFrame m t ∧
        m = { s with journal.flush := .page, walker.state := .waiting, walker.stage := .waiting }) ∧
    (∀ page, s.staging.queue = [] → s.journal.page = some page → page.closing = none → page.count ≠ 0 →
      ∃ m t, exec .flush s = .next t ∧ SettleFrame m t ∧
        m = { s with
          dma := m.dma
          journal.flush := .page
          journal.page := some { page with closing := some .flush, closeTime := s.run.clock, lingerDue := false }
          journal.linger := none
          walker.state := .waiting
          walker.stage := .waiting } ∧
        ∃ r, t.asks .journal r ∧ HeaderBody page .flush s.journal.pageSeq s.run.clock r)

/-- JOURNAL_MARK and MARK_ENTRY (R103, R105, R111, R150). With the fill below 96 in RUNNING or STOPPING the MARK with its slip's tag enters the
queue with the device record sequence, and the answer has that sequence and the time stamp; otherwise it waits, with the walker WAITING,
until there is room. Nothing else of the queue changes. That MARK_ENTRY without a waiting MARK or a place changes nothing is log 2, and
that a MARK offered outside RUNNING and STOPPING waits is log 41. -/
def Obligations.Marks : Prop :=
  ∀ (s : State) (sl : Slip) (tag : Word32),
    let place := s.staging.queue.length < 96 ∧ (s.run.device = .running ∨ s.run.device = .stopping)
    let q := s.staging.queue ++ [⟨.mark tag, none, s.run.clock, s.staging.devSeq⟩]
    let e : State := { s with staging := {
      queue := q
      hold := s.staging.hold || decide (s.unit.host.flowHigh ≤ q.length)
      devSeq := s.staging.devSeq + 1
      markWaiting := s.staging.markWaiting } }
    let a := accepted 0 (byte2 s.staging.devSeq.toNat ++ [0, 0] ++ byte4 s.run.clock)
    (s.hands (.journalMark tag) sl → place → AnsweredBy (.journalMark tag) s e sl a) ∧
    (s.hands (.journalMark tag) sl → ¬place →
      ∃ m t, exec (.journalMark tag) s = .next t ∧ SettleFrame m t ∧
        m = { s with staging.markWaiting := some tag, walker.state := .waiting, walker.stage := .waiting }) ∧
    (s.staging.markWaiting = some tag → s.walker.current = some sl → place →
      AnsweredBy .markEntry s { e with staging.markWaiting := none } sl a) ∧
    (s.staging.markWaiting = none ∨ ¬place → exec .markEntry s = .next s)

/-! ## Keylocks (chapter 1.3) -/

/-- The keylock reader (R12 to R14, R17). A valid reading of the current position clears the candidate and stops both timers; one of another
position makes it the candidate, restarts the settle timer and stops the indeterminate timer; an invalid reading clears the candidate,
stops the settle timer, and starts the indeterminate timer of 1024 ticks unless it runs. A stopped reader takes no reading, and a reading
that is the one the contacts show already is no change (that the contact inputs stand in the state is log 7). At the settle timer's expiry
the candidate is adopted, at the indeterminate timer's LOCK unless it is the position already: the candidate and the settle timer are
cleared; a dozing lane may wake on KEYLOCK, whose records come first; the KEYLOCK record has both positions, and leaving LOCK brings
KEY_IMAGE(RESYNC) directly behind it when the lane is then ACTIVE or dozing (R17); the status record is to be rewritten (R162). A timer that is not due does nothing (log 2). -/
def Obligations.KeylockReader : Prop :=
  (∀ (s : State) (l : Lane) (pos : Position) (bad : BitVec 4), oneContact bad = false →
    let u := s.lane l
    let k := u.keylock
    (k.running = true → k.contacts ≠ contactsOf pos → pos = k.position →
      exec (.keylockValidReading l pos) s = .next (s.setLane l { u with
        keylock := { k with contacts := contactsOf pos, candidate := none, settle := none, indet := none } })) ∧
    (k.running = true → k.contacts ≠ contactsOf pos → pos ≠ k.position →
      exec (.keylockValidReading l pos) s = .next (s.setLane l { u with
        keylock := { k with
          contacts := contactsOf pos, candidate := some pos, settle := some (msTicks u.settings.settleMs), indet := none } })) ∧
    (k.running = true → k.contacts ≠ bad →
      exec (.keylockInvalidReading l bad) s = .next (s.setLane l { u with
        keylock := { k with
          contacts := bad, candidate := none, settle := none, indet := some (k.indet.getD 1024) } })) ∧
    (k.running = false →
      exec (.keylockValidReading l pos) s = .next (s.setLane l { u with keylock := { k with contacts := contactsOf pos } }) ∧
      exec (.keylockInvalidReading l bad) s = .next (s.setLane l { u with keylock := { k with contacts := bad } })) ∧
    (k.contacts = contactsOf pos → exec (.keylockValidReading l pos) s = .next s) ∧
    (k.contacts = bad → exec (.keylockInvalidReading l bad) s = .next s)) ∧
  (∀ (s : State) (l : Lane) (pos : Position),
    let u := s.lane l
    let k := u.keylock
    (k.settle = some 0 → k.candidate = some pos →
      ∃ m t, exec (.keylockSettleExpiry l) s = .next t ∧ SettleFrame m t ∧ LaneFrame (only l) s m ∧
        (m.lane l).keylock = { k with position := pos, candidate := none, settle := none } ∧
        WokenBy s m l .keylock ∧ (m.lane l).rewrite = true ∧
        (s.roomy l → Produces s m l (s.wakeRecords l .keylock ++ .keylock pos k.position false ::
          if k.position = .lock ∧ pos ≠ .lock ∧ ((m.lane l).laneState = .active ∨ (m.lane l).laneState = .doze) then
            [(m.lane l).imageRecord .resync]
          else []))) ∧
    (k.indet = some 0 → k.position ≠ .lock →
      ∃ m t, exec (.keylockIndeterminateExpiry l) s = .next t ∧ SettleFrame m t ∧ LaneFrame (only l) s m ∧
        (m.lane l).keylock = { k with position := .lock, candidate := none, settle := none, indet := none } ∧
        WokenBy s m l .keylock ∧ (m.lane l).rewrite = true ∧
        (s.roomy l → Produces s m l (s.wakeRecords l .keylock ++ [.keylock .lock k.position true]))) ∧
    (k.indet = some 0 → k.position = .lock →
      ∃ m t, exec (.keylockIndeterminateExpiry l) s = .next t ∧ SettleFrame m t ∧
        m = s.setLane l { u with keylock := { k with indet := none } }) ∧
    (k.settle ≠ some 0 → exec (.keylockSettleExpiry l) s = .next s) ∧
    (k.indet ≠ some 0 → exec (.keylockIndeterminateExpiry l) s = .next s))

/-! ## The keyboard scanner (chapter 2) -/

/-- One pass over all keys (R20, R22, R23). Of a SCANNING lane whose pass is due: a key of the used matrix read in the other state for the
D-th pass in a row changes its debounced state, and no other key's changes; a change count rises by one on a pass that reads the key in the
other state without changing it, and is otherwise 0; the next pass comes one pass period later; a capture has one pass less to run (R10).
A pass that is not due or not of a SCANNING lane does nothing (log 2). -/
def Obligations.Pass : Prop :=
  ∀ (s : State) (l : Lane) (raw : BitVec 128),
    let u := s.lane l
    let reads (k : Key) : Prop := u.settings.usesKey k = true ∧ raw.getLsbD k.val ≠ u.kb.isDown k
    let flips (k : Key) : Prop := reads k ∧ u.settings.debounce ≤ u.kb.counts[k.val] + 1
    (u.kb.mode = .scanning → u.kb.passTimer = some 0 → u.keysOnce →
      ∃ m t, exec (.pass l raw) s = .next t ∧ SettleFrame m t ∧ LaneFrame (only l) s m ∧
        (∀ k, (flips k → (m.lane l).kb.isDown k = !u.kb.isDown k) ∧ (¬flips k → (m.lane l).kb.isDown k = u.kb.isDown k)) ∧
        (∀ k : Key, (reads k → ¬flips k → (m.lane l).kb.counts[k.val] = u.kb.counts[k.val] + 1) ∧
          (¬reads k ∨ flips k → (m.lane l).kb.counts[k.val] = 0)) ∧
        (m.lane l).kb.mode = .scanning ∧ (m.lane l).kb.passTimer = some u.settings.pass ∧
        (m.lane l).kb.capture = u.kb.capture.map (· - 1)) ∧
    (u.kb.mode ≠ .scanning ∨ u.kb.passTimer ≠ some 0 → exec (.pass l raw) s = .next s)

/-- A pass on which one key alone changes its debounced state, with no key blocked (R24 to R31, R33). Going down, a key that would be the
fourth corner of a rectangle of down keys is blocked as a ghost unless the matrix is isolated, one for which the image has no slot is
blocked for rollover, and any other is accepted as the newest key of the image, with its typematic sequence in the place of any other when
its repeat flag is set. Going up, it leaves the image and its sequence stops. Outside LOCK and a baseline capture each is reported with the
image's length after it; an accepted key then sets the key-since flag and is counted. That a pass between a capture's last pass and its
end still counts as capture is log 35, and that the end is an event of its own log 4. -/
def Obligations.PassOneKey : Prop :=
  ∀ (s : State) (l : Lane) (raw : BitVec 128) (k : Key),
    let u := s.lane l
    let reports := u.keylock.position ≠ .lock ∧ u.kb.capture = none
    let ghost := u.settings.isolated = false ∧ ∃ a b x, a ∈ u.kb.image ∧ b ∈ u.kb.image ∧ x ∈ u.kb.image ∧
      keyRow a = keyRow k ∧ keyCol a ≠ keyCol k ∧ keyCol b = keyCol k ∧ keyRow b ≠ keyRow k ∧
      keyRow x = keyRow b ∧ keyCol x = keyCol a
    u.kb.mode = .scanning → u.kb.passTimer = some 0 → u.keysOnce → u.kb.blocked = [] →
    u.settings.usesKey k = true → raw.getLsbD k.val ≠ u.kb.isDown k → u.settings.debounce ≤ u.kb.counts[k.val] + 1 →
    (∀ j, j ≠ k → raw.getLsbD j.val = u.kb.isDown j) →
    ∃ m t, exec (.pass l raw) s = .next t ∧ SettleFrame m t ∧ LaneFrame (only l) s m ∧
      (u.kb.isDown k = false → ghost →
        (m.lane l).kb.image = u.kb.image ∧ (m.lane l).kb.blocked = [(k, .ghost)] ∧ (m.lane l).kb.typematic = u.kb.typematic ∧
        (reports → s.roomy l → Produces s m l [.keyBlocked k .ghost u.kb.image.length]) ∧ (¬reports → m.staging = s.staging)) ∧
      (u.kb.isDown k = false → ¬ghost → u.settings.rollover ≤ u.kb.image.length →
        (m.lane l).kb.image = u.kb.image ∧ (m.lane l).kb.blocked = [(k, .rollover)] ∧ (m.lane l).kb.typematic = u.kb.typematic ∧
        (reports → s.roomy l → Produces s m l [.keyBlocked k .rollover u.kb.image.length]) ∧ (¬reports → m.staging = s.staging)) ∧
      (u.kb.isDown k = false → ¬ghost → u.kb.image.length < u.settings.rollover →
        (m.lane l).kb.image = u.kb.image ++ [k] ∧ (m.lane l).kb.blocked = [] ∧
        (m.lane l).kb.typematic = (if u.kb.capture = none ∧ u.settings.repeatMap.getLsbD k.val = true then
          some { key := k, repeating := false, left := msTicks u.settings.typematicMs } else none) ∧
        (reports → (m.lane l).acceptor = { u.acceptor with keySince := true } ∧ Counted s m l .keysDown ∧
          (u.laneState = .active → (m.lane l).idle = u.settings.idlePeriod) ∧
          (s.roomy l → Produces s m l [.keyDown k (u.kb.image.length + 1)])) ∧
        (¬reports → m.staging = s.staging ∧ (m.lane l).acceptor = u.acceptor ∧ (m.lane l).counters = u.counters)) ∧
      (u.kb.isDown k = true →
        (m.lane l).kb.image = u.kb.image.filter (fun j => decide (j ≠ k)) ∧ (m.lane l).kb.blocked = [] ∧
        (m.lane l).kb.typematic = u.kb.typematic.filter (fun y => decide (y.key ≠ k)) ∧
        (reports → s.roomy l → Produces s m l [.keyUp k (u.kb.image.length - 1)]) ∧ (¬reports → m.staging = s.staging))

/-- A pass on which any keys change (R22, R24 to R32): first the keys whose debounced state goes up, in ascending number; then every entry
of the blocked list that is left, from the oldest to the newest, which is accepted as soon as both tests pass; then the keys that go down,
in ascending number, each tested against the keys that then count as down. With room, outside LOCK and a capture, the records stand in
the queue in the order of these stages under consecutive lane sequences (in STOPPING none is produced, R100); at LOCK and in a capture there
are none. That a pass between a capture's last pass and its end counts as capture too is log 35. No key stands twice in the keyboard that
the pass finds, which every step keeps (LaneInvariant). -/
def Obligations.PassOrder : Prop :=
  ∀ (s : State) (l : Lane) (raw : BitVec 128) (w1 w2 w3 : KeyWork),
    let u := s.lane l
    let flips (k : Key) : Bool := u.settings.usesKey k && raw.getLsbD k.val != u.kb.isDown k &&
      decide (u.settings.debounce ≤ u.kb.counts[k.val] + 1)
    let keys (down : Bool) : List Key := (List.finRange 128).filter fun k => flips k && u.kb.isDown k != down
    u.kb.mode = .scanning → u.kb.passTimer = some 0 → u.keysOnce →
    KeyWork.each KeyWork.Up (keys false) { image := u.kb.image, blocked := u.kb.blocked, records := [] } w1 →
    KeyWork.each (KeyWork.Again u.settings) (w1.blocked.map Prod.fst) w1 w2 →
    KeyWork.each (KeyWork.Down u.settings) (keys true) w2 w3 →
    ∃ m t, exec (.pass l raw) s = .next t ∧ SettleFrame m t ∧ LaneFrame (only l) s m ∧
      (m.lane l).kb.image = w3.image ∧ (m.lane l).kb.blocked = w3.blocked ∧
      (u.keylock.position = .lock ∨ u.kb.capture ≠ none → m.staging = s.staging) ∧
      (u.keylock.position ≠ .lock → u.kb.capture = none → s.run.device = .running ∨ s.run.device = .stopping →
        u.losses[0] = 0 → u.losses[1] = 0 → s.staging.queue.length + w3.records.length ≤ 88 → Produces s m l w3.records)

/-- The keyboard's other events (R6, R7, R10, R21, R33 to R35). After the last of its passes a baseline capture ends with KEY_IMAGE(BASELINE)
of the image it built; before that, and without one, the command does nothing (log 4). A typematic timer that is due starts the repeat
interval, with KEY_REPEAT outside LOCK. An any-key examination in WAIT_CLEAR counts no-line-active readings in a row, and the D-th arms it;
in ARMED it counts active readings in a row, and the D-th is a detection; the next examination comes four pass periods later. A detection
wakes a dozing lane with KEY in its wake mask, in RUNNING and STOPPING, with LANE_STATE(WAKE, KEY), and the scanner then scans afresh; otherwise the stage returns to
WAIT_CLEAR. None does anything when it is not due (log 2, log 4). -/
def Obligations.KeyboardEvents : Prop :=
  (∀ (s : State) (l : Lane),
    let u := s.lane l
    (u.kb.capture = some 0 →
      ∃ m t, exec (.baselineCaptureEnd l) s = .next t ∧ SettleFrame m t ∧ LaneFrame (only l) s m ∧
        (m.lane l).kb = { u.kb with capture := none } ∧ (s.roomy l → Produces s m l [u.imageRecord .baseline])) ∧
    (u.kb.capture ≠ some 0 → exec (.baselineCaptureEnd l) s = .next s) ∧
    (∀ y, u.kb.typematic = some y → y.left = 0 →
      ∃ m t, exec (.typematicExpiry l) s = .next t ∧ SettleFrame m t ∧ LaneFrame (only l) s m ∧
        (m.lane l).kb = { u.kb with
          typematic := some { key := y.key, repeating := true, left := msTicks u.settings.repeatMs } } ∧
        (u.keylock.position ≠ .lock → s.roomy l → Produces s m l [.keyRepeat y.key u.kb.image.length]) ∧
        (u.keylock.position = .lock → m.staging = s.staging)) ∧
    ((∀ y, u.kb.typematic = some y → y.left ≠ 0) → exec (.typematicExpiry l) s = .next s)) ∧
  (∀ (s : State) (l : Lane) (active : Bool),
    let u := s.lane l
    let n := u.kb.anyCount
    let due := u.kb.mode = .anyKey ∧ u.kb.passTimer = some 0
    let after (stage : AnyStage) (count : Nat) (detected : Bool) : Prop :=
      exec (.anyKeyExamination l active) s = .next (s.setLane l { u with kb := { u.kb with
        anyStage := stage, anyCount := count, detected := detected, passTimer := some (4 * u.settings.pass) } })
    (due → u.kb.anyStage = .waitClear → active = true → after .waitClear 0 u.kb.detected) ∧
    (due → u.kb.anyStage = .waitClear → active = false → n + 1 < u.settings.debounce → after .waitClear (n + 1) u.kb.detected) ∧
    (due → u.kb.anyStage = .waitClear → active = false → u.settings.debounce ≤ n + 1 → after .armed 0 u.kb.detected) ∧
    (due → u.kb.anyStage = .armed → active = false → after .armed 0 u.kb.detected) ∧
    (due → u.kb.anyStage = .armed → active = true → n + 1 < u.settings.debounce → after .armed (n + 1) u.kb.detected) ∧
    (due → u.kb.anyStage = .armed → active = true → u.settings.debounce ≤ n + 1 → after .armed 0 true) ∧
    (¬due → exec (.anyKeyExamination l active) s = .next s) ∧
    (u.kb.detected = true → u.configured = true → u.laneState = .doze → u.settings.wake.getLsbD 0 = true →
      s.run.device = .running ∨ s.run.device = .stopping → u.kb.mode ≠ .scanning →
      ∃ m t, exec (.anyKeyDetection l) s = .next t ∧ SettleFrame m t ∧ LaneFrame (only l) s m ∧
        LaneChange s m l .active ∧ (s.roomy l → Produces s m l (u.changeRecords .active (.wake .key))) ∧
        (m.lane l).kb = { Keyboard.reset with mode := .scanning, passTimer := some u.settings.pass }) ∧
    (u.kb.detected = true → u.kb.mode = .anyKey →
      ¬(u.laneState = .doze ∧ u.settings.wake.getLsbD 0 = true ∧ (s.run.device = .running ∨ s.run.device = .stopping)) →
      ∃ m t, exec (.anyKeyDetection l) s = .next t ∧ SettleFrame m t ∧
        m = s.setLane l { u with kb := { u.kb with anyStage := .waitClear, anyCount := 0, detected := false } }) ∧
    (u.kb.detected = false → exec (.anyKeyDetection l) s = .next s))

/-! ## The scanner ports and the label acceptor (chapters 3 and 4) -/

/-- READY (R52): a port's output is asserted exactly while the device is RUNNING, its lane is ACTIVE or dozing with the port's source in its
wake mask, the position is not LOCK, the port's settings and its order enable flag enable it, and flow hold is clear. -/
def Obligations.ReadyOutput : Prop :=
  ∀ (s : State) (l : Lane) (p : Port),
    let u := s.lane l
    s.ready l p = true ↔
      s.run.device = .running ∧
      (u.laneState = .active ∨ u.laneState = .doze ∧ u.settings.wake.getLsbD (match p with | .a => 1 | .b => 2) = true) ∧
      u.keylock.position ≠ .lock ∧ (u.portSettings p).enable = true ∧ (u.port p).orderEnable = true ∧ s.staging.hold = false

/-- A sampled character and what it does (R43 to R47, R49, R52). In 8N1 its value is its eight bits; in 7E1 and 7O1 the low seven, the eighth
completing them to an even or an odd number of ones; it is in error when the stop bit is low or the parity disagrees, and a line held low is
a character in error (that its value is 0 is log 12). At a receiver that is ON and not held low: WAITING, a terminator begins no frame; with
READY asserted the frame is begun with the character, and its port is a wake source, with LANE_STATE(WAKE) where it wakes the lane (R5, R7); with READY low the frame is discarded whole,
and reported HELD on an ACTIVE lane of a RUNNING device. ASSEMBLING: any character but a terminator is placed as mark, text or overflow,
and the gap timer restarts; a terminator after an empty text drops the frame. DISCARDING: a terminator ends it, any other character
restarts the gap timer. After a line held low no start bit is taken. At a receiver that is OFF or held low the command does nothing. -/
def Obligations.CharacterReceived : Prop :=
  (∀ (bits : Byte) (stop : Bool),
    let ones := (Finset.univ.filter fun i : Fin 8 => bits.getLsbD i.val = true).card
    receiveChar .f8n1 (.sampled bits stop) = (bits, !stop) ∧
    receiveChar .f7e1 (.sampled bits stop) = (bits &&& 0x7F, !(stop && decide (ones % 2 = 0))) ∧
    receiveChar .f7o1 (.sampled bits stop) = (bits &&& 0x7F, !(stop && decide (ones % 2 = 1))) ∧
    ∀ format, receiveChar format .heldLow = (0, true)) ∧
  (∀ (s : State) (l : Lane) (p : Port) (ch : RxChar),
    let u := s.lane l
    let c := u.portSettings p
    let q := u.port p
    let v := (receiveChar c.format ch).1
    let err := (receiveChar c.format ch).2
    let low := decide (ch = .heldLow)
    let term := err = false ∧ v = if c.format = .f8n1 then c.terminator else c.terminator &&& 0x7F
    let ready := s.run.device = .running ∧ (u.laneState = .active ∨ u.laneState = .doze ∧ u.settings.wake.getLsbD
        (match p with | .a => 1 | .b => 2) = true) ∧
      u.keylock.position ≠ .lock ∧ c.enable = true ∧ q.orderEnable = true ∧ s.staging.hold = false
    let gap := some (msTicks c.gapMs)
    (q.on = false ∨ q.lineLow = true → exec (.characterReceived l p ch) s = .next s) ∧
    (q.on = true → q.lineLow = false → q.frame = .waiting → term →
      ∃ m t, exec (.characterReceived l p ch) s = .next t ∧ SettleFrame m t ∧ m = s.modPort l p fun q => { q with gap := none }) ∧
    (q.on = true → q.lineLow = false → q.frame = .waiting → ¬term → ready → u.configured = true →
      ∃ m t, exec (.characterReceived l p ch) s = .next t ∧ SettleFrame m t ∧ LaneFrame (only l) s m ∧
        (m.lane l).port p = { q with
          lineLow := low
          frame := .assembling
          gap := gap
          damaged := err
          tooLong := false
          mark := if c.markMode then some v else none
          text := if c.markMode then [] else [v] } ∧
        (let source := match p with | .a => WakeSource.scanA | .b => .scanB
          WokenBy s m l source ∧ (s.roomy l → Produces s m l (s.wakeRecords l source)))) ∧
    (q.on = true → q.lineLow = false → q.frame = .waiting → ¬term → ¬ready →
      ∃ m t, exec (.characterReceived l p ch) s = .next t ∧ SettleFrame m t ∧ LaneFrame (only l) s m ∧
        (m.lane l).port p = { q with
          lineLow := low, frame := .discarding, gap := gap, mark := none, text := [], damaged := false, tooLong := false } ∧
        (s.run.device = .running → u.laneState = .active →
          Counted s m l .labelsRefused ∧ (s.roomy l → Produces s m l [.labelRefused p (.held 0)])) ∧
        (s.run.device ≠ .running ∨ u.laneState ≠ .active → m.staging = s.staging ∧ (m.lane l).counters = u.counters)) ∧
    (q.on = true → q.lineLow = false → q.frame = .assembling → ¬term →
      ∃ m t, exec (.characterReceived l p ch) s = .next t ∧ SettleFrame m t ∧ m = s.modPort l p fun q => { q with
        lineLow := low
        gap := gap
        damaged := q.damaged || err
        mark := if c.markMode = true ∧ q.mark = none then some v else q.mark
        text := if (c.markMode = true ∧ q.mark = none) ∨ 48 ≤ q.text.length then q.text else q.text ++ [v]
        tooLong := q.tooLong || decide (¬(c.markMode = true ∧ q.mark = none) ∧ 48 ≤ q.text.length) }) ∧
    (q.on = true → q.lineLow = false → q.frame = .assembling → term → q.text = [] →
      ∃ m t, exec (.characterReceived l p ch) s = .next t ∧ SettleFrame m t ∧ m = s.modPort l p fun q => { q with
        frame := .waiting, gap := none, mark := none, damaged := false, tooLong := false }) ∧
    (q.on = true → q.lineLow = false → q.frame = .discarding →
      ∃ m t, exec (.characterReceived l p ch) s = .next t ∧ SettleFrame m t ∧
        (term → m = s.modPort l p fun q => { q with
          frame := .waiting, gap := none, mark := none, text := [], damaged := false, tooLong := false }) ∧
        (¬term → m = s.modPort l p fun q => { q with lineLow := low, gap := gap })))

/-- A terminator ends a frame with text, and the label acceptor judges it (R47, R61 to R71): refused HELD at LOCK, then DAMAGED, LONG, SHORT,
CHECK with the expected digit, in this order; then a duplicate of the last label within the window, with no key since, moves the last
label's time and is counted, with a record when the port reports duplicates; any other is accepted: it is the last label, LABELS_OK is
counted, LABEL is offered, an AUTO port starts GOOD (R56), and an ACTIVE lane's idle timer restarts. The port is WAITING with an empty frame
after each. -/
def Obligations.LabelJudged : Prop :=
  ∀ (s : State) (l : Lane) (p : Port) (ch : RxChar),
    let u := s.lane l
    let c := u.portSettings p
    let q := u.port p
    let n := q.text.length
    let digits : Bool := q.text.all fun b => decide (0x30 ≤ b.toNat ∧ b.toNat ≤ 0x39)
    let applies := c.check = true ∧ digits = true ∧ (n = 8 ∨ n = 12 ∨ n = 13 ∨ n = 14)
    let sum := ∑ i ∈ Finset.range (n - 1), ((byteAt q.text i).toNat - 0x30) * if (n - 2 - i) % 2 = 0 then 3 else 1
    let digit := (10 - sum % 10) % 10
    let passes := (byteAt q.text (n - 1)).toNat = 0x30 + digit
    let dup := u.acceptor.keySince = false ∧ ∃ lab, u.acceptor.last = some lab ∧ lab.text = q.text ∧
      (s.run.clock - lab.time).toNat < msTicks u.settings.dupWindowMs
    let done : ScanPort := { q with frame := .waiting, gap := none, mark := none, text := [], damaged := false, tooLong := false }
    let refused (why : RefuseReason) : Prop :=
      ∃ m t, exec (.characterReceived l p ch) s = .next t ∧ SettleFrame m t ∧ LaneFrame (only l) s m ∧ (m.lane l).port p = done ∧
        (m.lane l).acceptor = u.acceptor ∧ Counted s m l .labelsRefused ∧ (s.roomy l → Produces s m l [.labelRefused p why])
    q.on = true → q.lineLow = false → q.frame = .assembling → q.text ≠ [] →
    c.isTerminator (receiveChar c.format ch).1 (receiveChar c.format ch).2 = true →
      let held := u.keylock.position = .lock
      let sound := ¬held ∧ q.damaged = false ∧ q.tooLong = false ∧ c.minLength ≤ n ∧ (applies → passes)
      (held → refused (.held n)) ∧
      (¬held → q.damaged = true → refused (.damaged n)) ∧
      (¬held → q.damaged = false → q.tooLong = true → refused (.long n)) ∧
      (¬held → q.damaged = false → q.tooLong = false → n < c.minLength → refused (.short n)) ∧
      (¬held → q.damaged = false → q.tooLong = false → c.minLength ≤ n → applies → ¬passes → refused (.check digit q.text)) ∧
      (sound → dup →
        ∃ m t, exec (.characterReceived l p ch) s = .next t ∧ SettleFrame m t ∧ LaneFrame (only l) s m ∧ (m.lane l).port p = done ∧
          (m.lane l).acceptor = { u.acceptor with last := u.acceptor.last.map fun lab => { lab with time := s.run.clock } } ∧
          Counted s m l .duplicates ∧
          (c.reportDuplicates = true → s.roomy l → ∀ lab, u.acceptor.last = some lab →
            Produces s m l [.labelDuplicate p (s.run.clock - lab.time)]) ∧
          (c.reportDuplicates = false → m.staging = s.staging)) ∧
      (sound → ¬dup →
        ∃ m t, exec (.characterReceived l p ch) s = .next t ∧ SettleFrame m t ∧ LaneFrame (only l) s m ∧
          (m.lane l).port p = (if c.hostConfirm then done else { done with
            toneOn := true, tone := some { bad := false, step := 0, period := msTicks c.toneMs, left := msTicks c.toneMs } }) ∧
          (m.lane l).acceptor = { last := some { text := q.text, port := p, time := s.run.clock }, keySince := false } ∧
          Counted s m l .labelsOk ∧ (u.laneState = .active → (m.lane l).idle = u.settings.idlePeriod) ∧
          (s.roomy l → Produces s m l [.label p q.mark (decide applies) q.text]))

/-- A port's gap timer, tone timer and line (R43, R48, R49, R55). The gap timer refuses a frame in assembly as FRAGMENT with what it holds,
ends a frame in discard, and else only stops. GOOD ends with its one step; BAD goes on to its next step, the output on in the even ones, and
ends with its fifth. A line that returns high lets start bits be taken again. A timer that is not due does nothing (log 2). -/
def Obligations.PortTimers : Prop :=
  ∀ (s : State) (l : Lane) (p : Port),
    let q := (s.lane l).port p
    (q.gap = some 0 → q.frame = .assembling →
      ∃ m t, exec (.gapTimerExpiry l p) s = .next t ∧ SettleFrame m t ∧ LaneFrame (only l) s m ∧
        (m.lane l).port p = { q with
          frame := .waiting, gap := none, mark := none, text := [], damaged := false, tooLong := false } ∧
        Counted s m l .labelsRefused ∧ (m.lane l).acceptor = (s.lane l).acceptor ∧
        (s.roomy l → Produces s m l [.labelRefused p (.fragment q.text.length q.damaged q.tooLong)])) ∧
    (q.gap = some 0 → q.frame = .discarding →
      exec (.gapTimerExpiry l p) s = .next (s.modPort l p fun q => { q with
        frame := .waiting, gap := none, mark := none, text := [], damaged := false, tooLong := false })) ∧
    (q.gap = some 0 → q.frame = .waiting →
      exec (.gapTimerExpiry l p) s = .next (s.modPort l p fun q => { q with gap := none })) ∧
    (q.gap ≠ some 0 → exec (.gapTimerExpiry l p) s = .next s) ∧
    (∀ y, q.tone = some y → y.left = 0 → y.bad = false ∨ 4 ≤ y.step →
      exec (.toneStepExpiry l p) s = .next (s.modPort l p fun q => { q with toneOn := false, tone := none })) ∧
    (∀ y, q.tone = some y → y.left = 0 → y.bad = true → y.step < 4 →
      exec (.toneStepExpiry l p) s = .next (s.modPort l p fun q => { q with
        toneOn := decide (y.step % 2 = 1), tone := some { y with step := y.step + 1, left := y.period } })) ∧
    ((∀ y, q.tone = some y → y.left ≠ 0) → exec (.toneStepExpiry l p) s = .next s) ∧
    exec (.receiveLineReturnedHigh l p) s = .next (s.modPort l p fun q => { q with lineLow := false })

/-! ## The drawer controller (chapter 5) -/

/-- The open sensor (R78, R79, R81 to R83, R85, R86). A change of the raw reading of a running controller outside a measurement starts the
settle timer, or stops it when the reading is again the settled state. At its expiry the settled state is the raw reading, and the sensor
event is taken by condition: open from KICKING (KICK), from JAMMED (LATE), and from CLOSED at SERVICE (MANUAL), each with the ajar timing
started and, of a kick, its output and timers stopped; closed from OPEN, AJAR and FORCED. Each may wake a dozing lane, whose records come first (R79). In the other conditions it changes nothing else.
Openings without a kick outside SERVICE are the next statement. That an expiry that is not due and an event with the reading already there
change nothing is log 2, and that the raw input stands in the state, under a stopped controller too, is log 7. -/
def Obligations.DrawerSensor : Prop :=
  ∀ (s : State) (l : Lane) (isOpen : Bool),
    let u := s.lane l
    let c := u.settings.drawer
    let d := u.drawer
    let opened (d : Drawer) : Drawer := { d with
      settledOpen := true
      settle := none
      cond := .isOpen
      openedAt := s.run.clock
      stage := .alertPending
      alert := some (secTicks c.alertS)
      faultMark := some (secTicks c.faultS)
      alertTicks := secTicks c.alertS
      faultTicks := secTicks c.faultS }
    let settles (d' : Drawer) (cause : DrawerCause) (value : Word32) : Prop :=
      ∃ m t, exec (.drawerSensorSettleExpiry l) s = .next t ∧ SettleFrame m t ∧ LaneFrame (only l) s m ∧ (m.lane l).drawer = d' ∧
        (m.lane l).rewrite = true ∧ WokenBy s m l .drawer ∧
        (s.roomy l → Produces s m l (s.wakeRecords l .drawer ++ [.drawer d'.cond d.cond cause d'.latch d'.ajarFault value]))
    (d.rawOpen ≠ isOpen → d.running = true → d.measuring = none →
      exec (.drawerSensorChange l isOpen) s = .next (s.setLane l { u with drawer := { d with
        rawOpen := isOpen, settle := if isOpen = d.settledOpen then none else some (msTicks c.settleMs) } })) ∧
    (d.rawOpen ≠ isOpen → d.running = false ∨ d.measuring ≠ none →
      exec (.drawerSensorChange l isOpen) s = .next (s.setLane l { u with drawer := { d with rawOpen := isOpen } })) ∧
    (d.rawOpen = isOpen → exec (.drawerSensorChange l isOpen) s = .next s) ∧
    (d.settle ≠ some 0 → exec (.drawerSensorSettleExpiry l) s = .next s) ∧
    (d.settle = some 0 → d.rawOpen = true →
      (d.cond = .kicking →
        settles { opened d with kickOut := false, pulse := none, confirm := none } .kick (s.run.clock - d.kickStart)) ∧
      (d.cond = .jammed → settles (opened d) .late (s.run.clock - d.kickStart)) ∧
      (d.cond = .closed → u.keylock.position = .service → settles (opened d) .manual 0)) ∧
    (d.settle = some 0 → d.rawOpen = false → d.cond = .isOpen ∨ d.cond = .ajar ∨ d.cond = .forced →
      settles { d with
        settledOpen := false, settle := none, cond := .closed, ajarFault := false, stage := .none, alert := none,
        faultMark := none } .close (s.run.clock - d.openedAt)) ∧
    (d.settle = some 0 →
      (d.rawOpen = true ∧ (d.cond = .isOpen ∨ d.cond = .ajar ∨ d.cond = .forced ∨ d.cond = .absent)) ∨
        (d.rawOpen = false ∧ (d.cond = .closed ∨ d.cond = .kicking ∨ d.cond = .jammed ∨ d.cond = .absent)) →
      ∃ m t, exec (.drawerSensorSettleExpiry l) s = .next t ∧ SettleFrame m t ∧
        m = s.setLane l { u with drawer := { d with settledOpen := d.rawOpen, settle := none } })

/-- An opening of a CLOSED drawer without a kick, outside SERVICE (R83, R84): FORCED, with the ajar timing started and FORCED counted. The
history loses the entries at least as old as the window, and its oldest when it has eight, and gains this time; when it then has as many
entries as the lockout count calls for, the latch is set, the history emptied, and a LOCKOUT record follows directly behind the FORCED one, both
with the number of entries; the records of a wake stand ahead of both (R79). That the FORCED record has the latch as it is after the event is log 13. -/
def Obligations.ForcedOpening : Prop :=
  ∀ (s : State) (l : Lane),
    let u := s.lane l
    let c := u.settings.drawer
    let d := u.drawer
    let now := s.run.clock
    let kept := d.history.filter fun e => decide ((now - e).toNat < minTicks c.lockoutMin)
    let h := kept.drop (kept.length - 7) ++ [now]
    let locks := decide (c.lockoutCount ≠ 0 ∧ d.latch = false ∧ c.lockoutCount ≤ h.length)
    d.settle = some 0 → d.rawOpen = true → d.cond = .closed → u.keylock.position ≠ .service →
      ∃ m t, exec (.drawerSensorSettleExpiry l) s = .next t ∧ SettleFrame m t ∧ LaneFrame (only l) s m ∧
        (m.lane l).drawer = { d with
          settledOpen := true
          settle := none
          cond := .forced
          openedAt := now
          stage := .alertPending
          alert := some (secTicks c.alertS)
          faultMark := some (secTicks c.faultS)
          alertTicks := secTicks c.alertS
          faultTicks := secTicks c.faultS
          history := if locks then [] else h
          latch := d.latch || locks } ∧
        Counted s m l .forced ∧ WokenBy s m l .drawer ∧ (m.lane l).rewrite = true ∧
        (s.roomy l → Produces s m l (s.wakeRecords l .drawer ++
          .drawer .forced .closed .forced (d.latch || locks) d.ajarFault (word h.length) ::
            if locks then [.drawer .forced .forced .lockout true d.ajarFault (word h.length)] else []))

/-- The drawer's timers (R80, R81, R85, R87 to R89). At the end of the pulse the output goes off and nothing else changes. At the confirm
timer's expiry in KICKING the drawer is JAMMED with its output and timers off, the TIMEOUT record has the confirm timeout in ticks, and JAMS
is counted. At the alert mark an OPEN drawer becomes AJAR with the AJAR record, any other stays, and the stage becomes FAULT_PENDING; at the
fault mark in that stage the ajar fault is set and the stage is NONE; each record has its mark in ticks. A change of condition may wake a dozing lane, whose records come first (R79). That the three records carry the
periods their timers started with is log 16. The presence timer starts a measurement of 2 ticks and stops the settle timer. At its end the
timer restarts and the sensor is compared; a line that followed the bias counts a failure, and the second in a row makes the drawer ABSENT
with the kick output, the kick's timers and the ajar timing stopped; one that did not follow clears the count, and an ABSENT drawer is again
OPEN or CLOSED by its settled sensor state. A timer that is not due (log 2), or whose condition or stage is not the one it acts in, does
nothing. -/
def Obligations.DrawerTimers : Prop :=
  (∀ (s : State) (l : Lane),
    let u := s.lane l
    let d := u.drawer
    (d.pulse = some 0 →
      exec (.kickPulseEnd l) s = .next (s.setLane l { u with drawer := { d with kickOut := false, pulse := none } })) ∧
    (d.pulse ≠ some 0 → exec (.kickPulseEnd l) s = .next s) ∧
    (d.confirm = some 0 → d.cond = .kicking →
      ∃ m t, exec (.confirmExpiry l) s = .next t ∧ SettleFrame m t ∧ LaneFrame (only l) s m ∧
        (m.lane l).drawer = { d with cond := .jammed, kickOut := false, pulse := none, confirm := none } ∧
        Counted s m l .jams ∧ WokenBy s m l .drawer ∧ (m.lane l).rewrite = true ∧
        (s.roomy l → Produces s m l
          (s.wakeRecords l .drawer ++ [.drawer .jammed .kicking .timeout d.latch d.ajarFault (word d.confirmTicks)]))) ∧
    (d.confirm ≠ some 0 ∨ d.cond ≠ .kicking → exec (.confirmExpiry l) s = .next s) ∧
    (d.alert = some 0 → d.stage = .alertPending → d.cond = .isOpen →
      ∃ m t, exec (.ajarAlertMark l) s = .next t ∧ SettleFrame m t ∧ LaneFrame (only l) s m ∧
        (m.lane l).drawer = { d with cond := .ajar, stage := .faultPending, alert := none } ∧ (m.lane l).rewrite = true ∧
        WokenBy s m l .drawer ∧
        (s.roomy l → Produces s m l
          (s.wakeRecords l .drawer ++ [.drawer .ajar .isOpen .ajar d.latch d.ajarFault (word d.alertTicks)]))) ∧
    (d.alert = some 0 → d.stage = .alertPending → d.cond ≠ .isOpen →
      ∃ m t, exec (.ajarAlertMark l) s = .next t ∧ SettleFrame m t ∧
        m = s.setLane l { u with drawer := { d with stage := .faultPending, alert := none } }) ∧
    (d.faultMark = some 0 → d.stage = .faultPending →
      ∃ m t, exec (.ajarFaultMark l) s = .next t ∧ SettleFrame m t ∧ LaneFrame (only l) s m ∧
        (m.lane l).drawer = { d with ajarFault := true, stage := .none, faultMark := none } ∧ (m.lane l).rewrite = true ∧
        LaneStays s m l ∧ (s.roomy l → Produces s m l [.drawer d.cond d.cond .ajarFault d.latch true (word d.faultTicks)])) ∧
    (d.alert ≠ some 0 ∨ d.stage ≠ .alertPending → exec (.ajarAlertMark l) s = .next s) ∧
    (d.faultMark ≠ some 0 ∨ d.stage ≠ .faultPending → exec (.ajarFaultMark l) s = .next s)) ∧
  (∀ (s : State) (l : Lane) (followed : Bool),
    let u := s.lane l
    let c := u.settings.drawer
    let d := u.drawer
    let restarted : Drawer := { d with
      measuring := none
      presence := if secTicks c.presenceS = 0 then none else some (secTicks c.presenceS)
      settle := if d.rawOpen = d.settledOpen then none else some (msTicks c.settleMs) }
    let ends (d' : Drawer) (cause : DrawerCause) : Prop :=
      ∃ m t, exec (.presenceMeasurementEnd l followed) s = .next t ∧ SettleFrame m t ∧ LaneFrame (only l) s m ∧
        (m.lane l).drawer = d' ∧ (m.lane l).rewrite = true ∧ WokenBy s m l .drawer ∧
        (s.roomy l → Produces s m l (s.wakeRecords l .drawer ++ [.drawer d'.cond d.cond cause d'.latch d'.ajarFault 0]))
    let quiet (d' : Drawer) : Prop :=
      ∃ m t, exec (.presenceMeasurementEnd l followed) s = .next t ∧ SettleFrame m t ∧ m = s.setLane l { u with drawer := d' }
    (d.presence = some 0 →
      exec (.presenceTimerExpiry l) s = .next (s.setLane l { u with
        drawer := { d with presence := none, measuring := some 2, settle := none } })) ∧
    (d.presence ≠ some 0 → exec (.presenceTimerExpiry l) s = .next s) ∧
    (d.measuring ≠ some 0 → exec (.presenceMeasurementEnd l followed) s = .next s) ∧
    (d.measuring = some 0 → followed = true → d.failCount = 0 → quiet { restarted with failCount := 1 }) ∧
    (d.measuring = some 0 → followed = true → 1 ≤ d.failCount → d.cond ≠ .absent →
      ends { restarted with
        failCount := 2, cond := .absent, kickOut := false, pulse := none, confirm := none, stage := .none, alert := none,
        faultMark := none } .absent) ∧
    (d.measuring = some 0 → followed = true → 1 ≤ d.failCount → d.cond = .absent → quiet { restarted with failCount := 2 }) ∧
    (d.measuring = some 0 → followed = false → d.cond ≠ .absent → quiet { restarted with failCount := 0 }) ∧
    (d.measuring = some 0 → followed = false → d.cond = .absent → d.settledOpen = false →
      ends { restarted with failCount := 0, cond := .closed, ajarFault := false } .present) ∧
    (d.measuring = some 0 → followed = false → d.cond = .absent → d.settledOpen = true →
      ends { restarted with
        failCount := 0
        cond := .isOpen
        openedAt := s.run.clock
        stage := .alertPending
        alert := some (secTicks c.alertS)
        faultMark := some (secTicks c.faultS)
        alertTicks := secTicks c.alertS
        faultTicks := secTicks c.faultS } .present))

/-! ## Frames, records, memory and the invariants -/

/-- What the end of an event asks of the settings unit (R147, R155, R162 to R164), outside the end of the drain: `m` is the state that the
event's own work leaves, and `m.settle` what follows. With no request of its own waiting or in flight, in RUNNING, STOPPING and STOPPED,
it takes the reload in hand first, then the device status section, then the lane status records, lowest lane first; the flag of what it
writes is cleared, every other flag stays, and the bytes are those of the moment. In LOADING it reads or writes what the load's step calls
for, the writes in the same order (log 21). In RESET_IDLE and FAULTED, and with its engine busy, it asks for nothing and clears nothing. -/
def Obligations.RewriteOrder : Prop :=
  ∀ m : State, ¬m.drainEnds →
    let t := m.settle
    let rewrites (dev : Bool) (lane : Lane → Bool) : Prop := t.unit.devRewrite = dev ∧ ∀ k, (t.lane k).rewrite = lane k
    let kept : Prop := rewrites m.unit.devRewrite fun k => (m.lane k).rewrite
    let writesDevice : Prop := t.asks .settings (writeRequest .deviceStatusWrite 0x40 m.deviceStatus) ∧
      rewrites false fun k => (m.lane k).rewrite
    let writesLane (l : Lane) (p : Purpose) : Prop :=
      t.asks .settings (writeRequest p (BitVec.ofNat 32 (0x480 + 128 * l.val)) ((m.lane l).status m.run.clock)) ∧
        rewrites m.unit.devRewrite fun k => (m.lane k).rewrite && decide (k ≠ l)
    let lowest (l : Lane) : Prop := (m.lane l).rewrite = true ∧ ∀ k < l, (m.lane k).rewrite = false
    let runs := m.run.device = .running ∨ m.run.device = .stopping ∨ m.run.device = .stopped
    (m.dma.busy .settings = true ∨ m.run.device = .resetIdle ∨ m.run.device = .faulted →
      kept ∧ t.unit = m.unit ∧ t.dma.busy .settings = m.dma.busy .settings) ∧
    (m.dma.busy .settings = false → runs →
      (∀ l, m.unit.reload = some (.read l) →
        t.asks .settings (readRequest (.reloadRead l) (BitVec.ofNat 32 (0x80 + 128 * l.val)) 128) ∧ kept) ∧
      (∀ l a, m.unit.reload = some (.echo l a) → writesLane l (.reloadEcho l)) ∧
      (m.unit.reload = none → m.unit.devRewrite = true → writesDevice) ∧
      (∀ l, m.unit.reload = none → m.unit.devRewrite = false → lowest l → writesLane l (.laneStatusWrite l)) ∧
      (m.unit.reload = none → m.unit.devRewrite = false → (∀ k, (m.lane k).rewrite = false) →
        kept ∧ t.dma.busy .settings = false)) ∧
    (m.dma.busy .settings = false → m.run.device = .loading →
      (m.unit.load = .hostPart → t.asks .settings (readRequest .hostPartRead 0 64) ∧ kept) ∧
      (∀ l, m.unit.load = .laneRecord l →
        t.asks .settings (readRequest (.laneSettingsRead l) (BitVec.ofNat 32 (0x80 + 128 * l.val)) 128) ∧ kept) ∧
      (∀ left, m.unit.load = .status left →
        (m.unit.devRewrite = true → writesDevice ∧ t.unit.load = .status (left.filter fun x => decide (x ≠ .device))) ∧
        (∀ l, m.unit.devRewrite = false → lowest l →
          writesLane l (.laneStatusWrite l) ∧ t.unit.load = .status (left.filter fun x => decide (x ≠ .lane l)))))

/-- The arbiter (R167, R168, R176): `m` is the state that an event's own work leaves, and `m.settle` what follows. A granted request keeps
the engine. With the engine free and the device not FAULTED, a request is granted whenever one is asked for: of the requesters that ask, the
first in the rotation journal writer, order walker, settings unit that follows the one granted last; it is then the one granted last, none of
its own requests waits any longer, and it is issued at the base the area registers hold. In FAULTED nothing is granted. That the requests of
the whole event are judged together is log 34, and that a rewrite in STOPPED goes to a base written there is log 40. -/
def Obligations.ArbiterGrant : Prop :=
  ∀ m : State,
    let t := m.settle
    (∀ g, m.dma.granted = some g → t.dma.granted = some g ∧ t.dma.last = m.dma.last) ∧
    (m.dma.granted = none → m.run.device = .faulted → t.dma.granted = none ∧ t.dma.last = m.dma.last) ∧
    (m.dma.granted = none → m.run.device ≠ .faulted →
      (t.dma.granted = none → (∀ w r, ¬t.asks w r) ∧ t.dma.last = m.dma.last) ∧
      (∀ g, t.dma.granted = some g →
        t.dma.last = g.who ∧ t.dma.waitingOf g.who = none ∧ g.base = m.run.areaHigh ++ m.run.areaLow ∧
        (m.dma.last = .journal → g.who = if t.dma.busy .walker then .walker else if t.dma.busy .settings then .settings else .journal) ∧
        (m.dma.last = .walker → g.who = if t.dma.busy .settings then .settings else if t.dma.busy .journal then .journal else .walker) ∧
        (m.dma.last = .settings → g.who = if t.dma.busy .journal then .journal else if t.dma.busy .walker then .walker else .settings)))

/-- The bytes of the two status structures (R140, R162, R163, R184, chapter 11.2), as the settings unit's writes take them: the device status
section of 64 bytes, and a lane status record of 128 with the echo of every effective setting, 0 at an unconfigured lane. Every byte that
names no field is 0. -/
def Obligations.StatusBytes : Prop :=
  (∀ s : State,
    let d := s.deviceStatus
    let h := s.unit.host
    let device := match s.run.device with
      | .resetIdle => 0 | .loading => 1 | .running => 2 | .stopping => 3 | .stopped => 4 | .faulted => 5
    let reason := match s.run.fault with | .none => 0 | .anchorBad => 1 | .linkAbort => 2
    let walker := match s.walker.state with
      | .idle => 0 | .fetching => 1 | .working => 2 | .waiting => 3 | .parked => 4 | .broken => 5 | .halted => 6
    let stall := match s.unit.stall.reason with
      | .none => 0 | .stalePage => 1 | .staleSlip => 2 | .badPageLink => 3 | .badSlipLink => 4
    d.length = 64 ∧ field1 d 0 = device ∧ field1 d 1 = reason ∧ field2 d 2 = s.run.runCount.toNat ∧
    field1 d 4 = s.unit.policyLock.toNat ∧ field1 d 5 = walker ∧
    (∀ i, i < 8 → (byteAt d 6).getLsbD i =
      if i = 0 then s.journal.episode else if i = 1 then s.staging.hold else if i = 2 then h.clamped else false) ∧
    byteAt d 7 = BitVec.ofNat 8 s.staging.queue.length ∧ field4 d 8 = s.journal.journalSeq ∧ field4 d 0x0C = s.journal.pageSeq ∧
    field4 d 0x10 = (match s.journal.page with | some page => page.offset | none => 0) ∧
    field4 d 0x14 = s.journal.lastClosed.getD 0 ∧
    field4 d 0x18 = (match s.walker.current with | some sl => sl.offset | none => s.walker.lastFinished.getD 0) ∧
    field4 d 0x1C = s.unit.stall.offset ∧ field1 d 0x20 = stall ∧ byteAt d 0x21 = h.selector ∧
    byteAt d 0x22 = BitVec.ofNat 8 h.lanesInUse ∧ byteAt d 0x23 = BitVec.ofNat 8 h.pageCode ∧
    byteAt d 0x24 = BitVec.ofNat 8 h.notice ∧ byteAt d 0x25 = BitVec.ofNat 8 h.urgent ∧
    byteAt d 0x26 = BitVec.ofNat 8 h.flowHigh ∧ byteAt d 0x27 = BitVec.ofNat 8 h.flowLow ∧
    field2 d 0x28 = h.lingerMs % 65536 ∧ byteAt d 0x2A = BitVec.ofNat 8 h.recheckMs ∧
    byteAt d 0x2B = h.enable.setWidth 8 ∧ field4 d 0x2C = s.run.clock ∧ (∀ i, 0x30 ≤ i → byteAt d i = 0)) ∧
  (∀ (u : LaneUnit) (clock : Word32),
    let d := u.status clock
    let c := u.settings
    let state := match u.laneState with | .disabled => 0 | .active => 1 | .doze => 2 | .off => 3
    let pos := match u.keylock.position with | .lock => 0 | .register => 1 | .manager => 2 | .service => 3
    let cond := match u.drawer.cond with
      | .closed => 0 | .kicking => 1 | .isOpen => 2 | .ajar => 3 | .forced => 4 | .jammed => 5 | .absent => 6
    let port (p : PortSettings) (o : Nat) : Prop :=
      field1 d o = p.enable.toNat ∧ byteAt d (o + 1) = BitVec.ofNat 8 p.rate ∧
      field1 d (o + 2) = (match p.format with | .f8n1 => 0 | .f7e1 => 1 | .f7o1 => 2) ∧ byteAt d (o + 3) = p.terminator ∧
      field1 d (o + 4) = p.markMode.toNat ∧ byteAt d (o + 5) = BitVec.ofNat 8 p.minLength ∧
      byteAt d (o + 6) = BitVec.ofNat 8 p.gapMs ∧ field1 d (o + 7) = p.check.toNat ∧ field1 d (o + 8) = p.hostConfirm.toNat ∧
      field1 d (o + 9) = p.reportDuplicates.toNat ∧ field2 d (o + 10) = p.toneMs % 65536 ∧ field4 d (o + 12) = 0
    d.length = 128 ∧ field1 d 0 = u.configured.toNat ∧ field1 d 1 = state ∧ field1 d 2 = pos ∧ field1 d 3 = cond ∧
    field1 d 4 = u.drawer.latch.toNat + 2 * u.drawer.ajarFault.toNat ∧ byteAt d 5 = BitVec.ofNat 8 u.drawer.history.length ∧
    byteAt d 6 = u.noted ∧ field1 d 7 = u.clamped.toNat + 2 * u.held.toNat ∧ field4 d 8 = 0 ∧ field4 d 0x0C = clock ∧
    (∀ i, 0x64 ≤ i → byteAt d i = 0) ∧ (u.configured = false → ∀ i, 0x10 ≤ i → byteAt d i = 0) ∧
    (u.configured = true →
      field1 d 0x10 = c.enable.toNat ∧ field1 d 0x11 = c.drawer.enable.toNat ∧ byteAt d 0x12 = c.selector ∧
      byteAt d 0x13 = c.wake.setWidth 8 ∧ field2 d 0x14 = c.idleMin % 65536 ∧ byteAt d 0x16 = BitVec.ofNat 8 c.drive ∧
      byteAt d 0x17 = BitVec.ofNat 8 c.sense ∧ byteAt d 0x18 = BitVec.ofNat 8 c.pass ∧
      byteAt d 0x19 = BitVec.ofNat 8 c.debounce ∧ byteAt d 0x1A = BitVec.ofNat 8 c.rollover ∧
      field1 d 0x1B = c.isolated.toNat ∧ field2 d 0x1C = c.settleMs % 65536 ∧ field2 d 0x1E = c.typematicMs % 65536 ∧
      field2 d 0x20 = c.repeatMs % 65536 ∧ field2 d 0x22 = c.dupWindowMs % 65536 ∧ byteAt d 0x24 = c.inhibit ∧
      byteAt d 0x25 = 0 ∧ byteAt d 0x26 = 0 ∧ byteAt d 0x27 = 0 ∧
      (∀ k : Key, (byteAt d (0x28 + k.val / 8)).getLsbD (k.val % 8) = c.repeatMap.getLsbD k.val) ∧
      port c.portA 0x38 ∧ port c.portB 0x48 ∧ field2 d 0x58 = c.drawer.kickMs % 65536 ∧
      field2 d 0x5A = c.drawer.confirmMs % 65536 ∧ field2 d 0x5C = c.drawer.alertS % 65536 ∧
      field2 d 0x5E = c.drawer.faultS % 65536 ∧ byteAt d 0x60 = BitVec.ofNat 8 c.drawer.settleMs ∧
      byteAt d 0x61 = BitVec.ofNat 8 c.drawer.presenceS ∧ byteAt d 0x62 = BitVec.ofNat 8 c.drawer.lockoutCount ∧
      byteAt d 0x63 = BitVec.ofNat 8 c.drawer.lockoutMin))

/-- The bytes of a record with its padding (R71, R186, chapter 11.4): the fixed part with the kind, the lane or 0xFF, the units, the class, the
time, the sequence, the detail and reason bytes and four data bytes, and behind it the tail, filled with 0 to the end of the last unit. A
record has two units and one for each 8 bytes of tail or part of them. That the mark byte of a LABEL without a mark is 0 is log 28. -/
def Obligations.RecordBytes : Prop :=
  ∀ r : StagedRecord,
    let d := r.bytes
    let pos (p : Position) : Nat := match p with | .lock => 0 | .register => 1 | .manager => 2 | .service => 3
    let port (p : Port) : Nat := match p with | .a => 0 | .b => 1
    let cond (x : Condition) : Nat := match x with
      | .closed => 0 | .kicking => 1 | .isOpen => 2 | .ajar => 3 | .forced => 4 | .jammed => 5 | .absent => 6
    let lane (x : LaneState) : Nat := match x with | .disabled => 0 | .active => 1 | .doze => 2 | .off => 3
    let row (kind cls detail reason : Nat) (data tail : List Byte) : Prop :=
      field1 d 0 = kind ∧ field1 d 3 = cls ∧ field1 d 10 = detail ∧ field1 d 11 = reason ∧
      (∀ i, i < 4 → byteAt d (12 + i) = byteAt data i) ∧ (∀ i, byteAt d (16 + i) = byteAt tail i) ∧
      r.body.units = 2 + (tail.length + 7) / 8
    let n8 := BitVec.ofNat 8
    d.length = 8 * r.body.units ∧ byteAt d 2 = n8 r.body.units ∧
    field1 d 1 = (match r.lane with | some l => l.val | none => 0xFF) ∧ field4 d 4 = r.time ∧ field2 d 8 = r.seq.toNat ∧
    match r.body with
    | .keyDown k n => row 1 0 k.val 0 [n8 n] []
    | .keyUp k n => row 2 0 k.val 0 [n8 n] []
    | .keyRepeat k n => row 3 0 k.val 0 [n8 n] []
    | .keyBlocked k why n => row 4 0 k.val (match why with | .ghost => 1 | .rollover => 2) [n8 n] []
    | .keyImage why bits n b =>
      row 5 2 0 (match why with | .baseline => 1 | .resync => 2 | .read => 3 | .reload => 4) [n8 n, n8 b]
        ((List.range 16).map fun i => (bits >>> (8 * i)).setWidth 8)
    | .keylock new old bad => row 6 2 (pos new) bad.toNat [n8 (pos old)] []
    | .label p mark passed text =>
      row 7 1 (port p) (if passed then 1 else 2) [n8 text.length, mark.getD 0, n8 mark.isSome.toNat] text
    | .labelRefused p why => match why with
      | .damaged n => row 8 1 (port p) 1 [n8 n] []
      | .long n => row 8 1 (port p) 2 [n8 n] []
      | .fragment n bad many => row 8 1 (port p) 3 [n8 n, 0, n8 (bad.toNat + 2 * many.toNat)] []
      | .short n => row 8 1 (port p) 4 [n8 n] []
      | .check digit text => row 8 1 (port p) 5 [n8 text.length, n8 digit] text
      | .held n => row 8 1 (port p) 6 [n8 n] []
      | .cut n => row 8 1 (port p) 7 [n8 n] []
    | .labelDuplicate p e => row 9 1 (port p) 0 [e.setWidth 8, (e >>> 8).setWidth 8, (e >>> 16).setWidth 8, (e >>> 24).setWidth 8] []
    | .drawer new old why latch ajar v =>
      field4 d 12 = v ∧ field1 d 3 = (match why with
        | .order => if new = .kicking then 2 else 3
        | .forced | .timeout | .ajarFault | .absent | .lockout => 3
        | _ => 2) ∧
      field1 d 0 = 10 ∧ field1 d 10 = cond new ∧ field1 d 11 = (match why with
        | .baseline => 1 | .order => 2 | .kick => 3 | .late => 4 | .manual => 5 | .ajar => 6 | .close => 7 | .present => 8
        | .release => 9 | .settings => 10 | .forced => 11 | .timeout => 12 | .ajarFault => 13 | .absent => 14 | .lockout => 15) ∧
      field1 d 16 = cond old ∧ field1 d 17 = latch.toNat + 2 * ajar.toNat ∧ (∀ i, 18 ≤ i → byteAt d i = 0) ∧ r.body.units = 3
    | .laneState new why => match why with
      | .order => row 11 2 (lane new) 1 [0] []
      | .idle => row 11 2 (lane new) 2 [0] []
      | .wake w => row 11 2 (lane new) 3 [match w with | .key => 1 | .scanA => 2 | .scanB => 3 | .keylock => 4 | .drawer => 5] []
      | .settings => row 11 2 (lane new) 4 [0] []
    | .gap a b c e => row 12 2 0 0 [] [n8 a, n8 (a / 256), n8 b, n8 (b / 256), n8 c, n8 (c / 256), n8 e, n8 (e / 256)]
    | .mark tag => field4 d 12 = tag ∧ field1 d 0 = 13 ∧ field1 d 3 = 2 ∧ field2 d 10 = 0 ∧ r.body.units = 2
    | .runStart n => row 14 2 0 0 [n.setWidth 8, (n >>> 8).setWidth 8] []

/-- The twenty-two events of a lane keep to their lane (R1, R3, R100 to R103, R105, R178): no other lane changes, no setting of any lane, and
no block but the pending causes and the staging queue, to which only records of the lane are appended, under its next sequences (R103); beside it stands what the end of
every event does. -/
def Obligations.LaneEventFrame : Prop :=
  ∀ (c : Instr) (l : Lane) (s t : State), laneOf c = some l → exec c s = .next t →
    ∃ m, LaneFrame (only l) s m ∧ SettleFrame m t

/-- A lane offers a record (R100, R102, R103, R105, R107, R108). RUNNING produces every class, STOPPING classes 2 and 3, every other device state
none. A record of class 0 or 1 enters below a fill of 88 when the lane has no loss of those classes pending, one of class 2 or 3 below 96;
it takes the clock and the lane sequence, which advances, and flow hold is set at the flow high mark. One that does not enter is a loss: its
class's count rises, to 65535 at most, and LOST is counted. -/
def Obligations.OfferRule : Prop :=
  ∀ (s : State) (l : Lane) (b : RecordBody),
    let u := s.lane l
    let made := s.run.device = .running ∨ (s.run.device = .stopping ∧ 2 ≤ b.cls)
    let fill := s.staging.queue.length
    let enters := if b.cls < 2 then fill < 88 ∧ u.losses[0] = 0 ∧ u.losses[1] = 0 else fill < 96
    b.cls ≤ 3 ∧
    (¬made → s.offer l b = s) ∧
    (made → enters →
      (s.offer l b).staging = { s.staging with
        queue := s.staging.queue ++ [⟨b, some l, s.run.clock, u.seq⟩]
        hold := s.staging.hold || decide (s.unit.host.flowHigh ≤ fill + 1) } ∧
      (∀ m, (s.offer l b).lane m = if m = l then { u with seq := u.seq + 1 } else s.lane m) ∧ (s.offer l b).run = s.run) ∧
    (made → ¬enters →
      (s.offer l b).staging = s.staging ∧ Counted s (s.offer l b) l .lost ∧
      (∀ i : Fin 4, ((s.offer l b).lane l).losses[i] =
        if i.val = b.cls then min 65535 (u.losses[i] + 1) else u.losses[i]) ∧
      ((s.offer l b).lane l).seq = u.seq ∧ ∀ m, m ≠ l → (s.offer l b).lane m = s.lane m)

/-- Host memory changes by the part's writes alone (R134, R153, R167, R183). A command that completes a write stores that write's bytes at the
base it was issued with plus its offset, and no others; an abort or a reset leaves each byte of the request in flight new or as it was; and
every other command leaves every byte. -/
def Obligations.MemoryWrites : Prop :=
  ∀ (c : Instr) (s t : State), exec c s = .next t →
    (∀ g, s.dma.granted = some g → completes c g.req.purpose → Stored s t g) ∧
    (c = .dmaAbort ∨ isReset c = true → Abandoned s t) ∧
    (c ≠ .dmaAbort → isReset c = false → (∀ g, s.dma.granted = some g → ¬completes c g.req.purpose) → t.hostMem = s.hostMem)

/-- Every step keeps the machine's invariants (R102, R103, R109, R113 to R115, R155, R168, R176, R181): the canonical form of the memory, the
alignment of the area base, no request in flight in FAULTED, no request that waits beside a free engine outside it (R167), requests of
each block's own, with one of the settings unit at most and a lane's settings read for LOADING alone, a staging queue of at most 96 records,
with none in RESET_IDLE, LOADING and STOPPED, and the waiting records of one lane, and those of lane 0xFF, under consecutive record sequences
that end one below the lane's, or the device's, next one. -/
def Obligations.MachineInvariant : Prop :=
  ∀ s t : State, s.memOk ∧ s.baseOk ∧ s.faultOk ∧ s.engineOk ∧ s.loadOk ∧ s.queueOk ∧ s.seqOk → step s = .next t →
    t.memOk ∧ t.baseOk ∧ t.faultOk ∧ t.engineOk ∧ t.loadOk ∧ t.queueOk ∧ t.seqOk

/-- No step leaves work behind (R126, R133, R155, R164, R167): from a state at whose event's end nothing was left to be asked for, closed,
halted or granted, every command, and every step, reaches one again. So every record that can be written is being written, every rewrite
that is due has been asked for, and the engine is never free beside a request that may be granted. -/
def Obligations.SettledInvariant : Prop :=
  (∀ (c : Instr) (s t : State), s.settled → exec c s = .next t → t.settled) ∧
    ∀ s t : State, s.settled → step s = .next t → t.settled

/-- Every step keeps the lanes' invariants: a latched drawer is not KICKING (R92), the kick output is on only under a running pulse timer (R80),
a history has at most 8 entries (R84); a frame's text has at most 48 characters and stands in ASSEMBLING alone (R46); the image stays within
the rollover limit and empty outside SCANNING (R21, R25), with each key once (R26); a receiver is ON exactly where R42 calls for it, and no
frame stands at one that is OFF; and every effective setting and stored drawer field is in
its range (R41, R60, R76, R158, R161). -/
def Obligations.LaneInvariant : Prop :=
  ∀ s t : State, s.lanesOk ∧ s.keysOnce ∧ s.receiversOk ∧ s.settingsOk → step s = .next t →
    t.lanesOk ∧ t.keysOnce ∧ t.receiversOk ∧ t.settingsOk

/-- The invariants hold after a power-on reset. -/
def Obligations.InvariantsAtReset : Prop :=
  State.reset.memOk ∧ State.reset.baseOk ∧ State.reset.faultOk ∧ State.reset.engineOk ∧ State.reset.loadOk ∧
    State.reset.queueOk ∧ State.reset.seqOk ∧ State.reset.settled ∧ State.reset.lanesOk ∧ State.reset.keysOnce ∧ State.reset.receiversOk ∧ State.reset.settingsOk
end

