-- ==== Sys2Proof/Laws/State.lean ====
section
/-! SUPPORT. What each shared update of State leaves as it is, field by field, and how the lanes read after one. -/

namespace Sys2Proof.Machine

/-! ## Lanes -/

@[simp] theorem lane_setLane_same (s : State) (l : Lane) (u : LaneUnit) : (s.setLane l u).lane l = u := by
  simp [State.setLane, State.lane]

theorem lane_setLane_ne (s : State) {l m : Lane} (u : LaneUnit) (h : m ≠ l) : (s.setLane l u).lane m = s.lane m := by
  have : l.val ≠ m.val := fun e => h (Fin.ext e.symm)
  simp [State.setLane, State.lane, this]

theorem lane_setLane (s : State) (l m : Lane) (u : LaneUnit) :
    (s.setLane l u).lane m = if m = l then u else s.lane m := by
  by_cases h : m = l
  · subst h; simp
  · simp [h, lane_setLane_ne s u h]

@[simp] theorem lane_modLane_same (s : State) (l : Lane) (f : LaneUnit → LaneUnit) : (s.modLane l f).lane l = f (s.lane l) := by
  simp [State.modLane]

theorem lane_modLane_ne (s : State) {l m : Lane} (f : LaneUnit → LaneUnit) (h : m ≠ l) :
    (s.modLane l f).lane m = s.lane m := by
  simp [State.modLane, lane_setLane_ne s _ h]

theorem lane_modLane (s : State) (l m : Lane) (f : LaneUnit → LaneUnit) :
    (s.modLane l f).lane m = if m = l then f (s.lane m) else s.lane m := by
  by_cases h : m = l
  · subst h; simp
  · simp [h, lane_modLane_ne s f h]

/-- Two states with the same lane units read the same at every lane. -/
theorem lane_congr {s t : State} (h : t.lanes = s.lanes) (m : Lane) : t.lane m = s.lane m := by
  simp [State.lane, h]

/-! ## Field by field -/

@[simp] theorem setLane_pending (s : State) (l : Lane) (u : LaneUnit) : (s.setLane l u).pending = s.pending := rfl
@[simp] theorem setLane_run (s : State) (l : Lane) (u : LaneUnit) : (s.setLane l u).run = s.run := rfl
@[simp] theorem setLane_staging (s : State) (l : Lane) (u : LaneUnit) : (s.setLane l u).staging = s.staging := rfl
@[simp] theorem setLane_journal (s : State) (l : Lane) (u : LaneUnit) : (s.setLane l u).journal = s.journal := rfl
@[simp] theorem setLane_walker (s : State) (l : Lane) (u : LaneUnit) : (s.setLane l u).walker = s.walker := rfl
@[simp] theorem setLane_unit (s : State) (l : Lane) (u : LaneUnit) : (s.setLane l u).unit = s.unit := rfl
@[simp] theorem setLane_dma (s : State) (l : Lane) (u : LaneUnit) : (s.setLane l u).dma = s.dma := rfl
@[simp] theorem setLane_hostMem (s : State) (l : Lane) (u : LaneUnit) : (s.setLane l u).hostMem = s.hostMem := rfl
@[simp] theorem setLane_causeReadData (s : State) (l : Lane) (u : LaneUnit) : (s.setLane l u).causeReadData = s.causeReadData := rfl
@[simp] theorem setLane_freeUsed (s : State) (l : Lane) (u : LaneUnit) : (s.setLane l u).freeUsed = s.freeUsed := rfl

@[simp] theorem modLane_pending (s : State) (l : Lane) (f : LaneUnit → LaneUnit) : (s.modLane l f).pending = s.pending := rfl
@[simp] theorem modLane_run (s : State) (l : Lane) (f : LaneUnit → LaneUnit) : (s.modLane l f).run = s.run := rfl
@[simp] theorem modLane_staging (s : State) (l : Lane) (f : LaneUnit → LaneUnit) : (s.modLane l f).staging = s.staging := rfl
@[simp] theorem modLane_journal (s : State) (l : Lane) (f : LaneUnit → LaneUnit) : (s.modLane l f).journal = s.journal := rfl
@[simp] theorem modLane_walker (s : State) (l : Lane) (f : LaneUnit → LaneUnit) : (s.modLane l f).walker = s.walker := rfl
@[simp] theorem modLane_unit (s : State) (l : Lane) (f : LaneUnit → LaneUnit) : (s.modLane l f).unit = s.unit := rfl
@[simp] theorem modLane_dma (s : State) (l : Lane) (f : LaneUnit → LaneUnit) : (s.modLane l f).dma = s.dma := rfl
@[simp] theorem modLane_hostMem (s : State) (l : Lane) (f : LaneUnit → LaneUnit) : (s.modLane l f).hostMem = s.hostMem := rfl
@[simp] theorem modLane_causeReadData (s : State) (l : Lane) (f : LaneUnit → LaneUnit) : (s.modLane l f).causeReadData = s.causeReadData := rfl
@[simp] theorem modLane_freeUsed (s : State) (l : Lane) (f : LaneUnit → LaneUnit) : (s.modLane l f).freeUsed = s.freeUsed := rfl

@[simp] theorem modPort_pending (s : State) (l : Lane) (p : Port) (f : ScanPort → ScanPort) : (s.modPort l p f).pending = s.pending := rfl
@[simp] theorem modPort_run (s : State) (l : Lane) (p : Port) (f : ScanPort → ScanPort) : (s.modPort l p f).run = s.run := rfl
@[simp] theorem modPort_staging (s : State) (l : Lane) (p : Port) (f : ScanPort → ScanPort) : (s.modPort l p f).staging = s.staging := rfl
@[simp] theorem modPort_journal (s : State) (l : Lane) (p : Port) (f : ScanPort → ScanPort) : (s.modPort l p f).journal = s.journal := rfl
@[simp] theorem modPort_walker (s : State) (l : Lane) (p : Port) (f : ScanPort → ScanPort) : (s.modPort l p f).walker = s.walker := rfl
@[simp] theorem modPort_unit (s : State) (l : Lane) (p : Port) (f : ScanPort → ScanPort) : (s.modPort l p f).unit = s.unit := rfl
@[simp] theorem modPort_dma (s : State) (l : Lane) (p : Port) (f : ScanPort → ScanPort) : (s.modPort l p f).dma = s.dma := rfl
@[simp] theorem modPort_hostMem (s : State) (l : Lane) (p : Port) (f : ScanPort → ScanPort) : (s.modPort l p f).hostMem = s.hostMem := rfl
@[simp] theorem modPort_causeReadData (s : State) (l : Lane) (p : Port) (f : ScanPort → ScanPort) : (s.modPort l p f).causeReadData = s.causeReadData := rfl
@[simp] theorem modPort_freeUsed (s : State) (l : Lane) (p : Port) (f : ScanPort → ScanPort) : (s.modPort l p f).freeUsed = s.freeUsed := rfl

@[simp] theorem modKb_pending (s : State) (l : Lane) (f : Keyboard → Keyboard) : (s.modKb l f).pending = s.pending := rfl
@[simp] theorem modKb_run (s : State) (l : Lane) (f : Keyboard → Keyboard) : (s.modKb l f).run = s.run := rfl
@[simp] theorem modKb_staging (s : State) (l : Lane) (f : Keyboard → Keyboard) : (s.modKb l f).staging = s.staging := rfl
@[simp] theorem modKb_journal (s : State) (l : Lane) (f : Keyboard → Keyboard) : (s.modKb l f).journal = s.journal := rfl
@[simp] theorem modKb_walker (s : State) (l : Lane) (f : Keyboard → Keyboard) : (s.modKb l f).walker = s.walker := rfl
@[simp] theorem modKb_unit (s : State) (l : Lane) (f : Keyboard → Keyboard) : (s.modKb l f).unit = s.unit := rfl
@[simp] theorem modKb_dma (s : State) (l : Lane) (f : Keyboard → Keyboard) : (s.modKb l f).dma = s.dma := rfl
@[simp] theorem modKb_hostMem (s : State) (l : Lane) (f : Keyboard → Keyboard) : (s.modKb l f).hostMem = s.hostMem := rfl
@[simp] theorem modKb_causeReadData (s : State) (l : Lane) (f : Keyboard → Keyboard) : (s.modKb l f).causeReadData = s.causeReadData := rfl
@[simp] theorem modKb_freeUsed (s : State) (l : Lane) (f : Keyboard → Keyboard) : (s.modKb l f).freeUsed = s.freeUsed := rfl

@[simp] theorem modKeylock_pending (s : State) (l : Lane) (f : Keylock → Keylock) : (s.modKeylock l f).pending = s.pending := rfl
@[simp] theorem modKeylock_run (s : State) (l : Lane) (f : Keylock → Keylock) : (s.modKeylock l f).run = s.run := rfl
@[simp] theorem modKeylock_staging (s : State) (l : Lane) (f : Keylock → Keylock) : (s.modKeylock l f).staging = s.staging := rfl
@[simp] theorem modKeylock_journal (s : State) (l : Lane) (f : Keylock → Keylock) : (s.modKeylock l f).journal = s.journal := rfl
@[simp] theorem modKeylock_walker (s : State) (l : Lane) (f : Keylock → Keylock) : (s.modKeylock l f).walker = s.walker := rfl
@[simp] theorem modKeylock_unit (s : State) (l : Lane) (f : Keylock → Keylock) : (s.modKeylock l f).unit = s.unit := rfl
@[simp] theorem modKeylock_dma (s : State) (l : Lane) (f : Keylock → Keylock) : (s.modKeylock l f).dma = s.dma := rfl
@[simp] theorem modKeylock_hostMem (s : State) (l : Lane) (f : Keylock → Keylock) : (s.modKeylock l f).hostMem = s.hostMem := rfl
@[simp] theorem modKeylock_causeReadData (s : State) (l : Lane) (f : Keylock → Keylock) : (s.modKeylock l f).causeReadData = s.causeReadData := rfl
@[simp] theorem modKeylock_freeUsed (s : State) (l : Lane) (f : Keylock → Keylock) : (s.modKeylock l f).freeUsed = s.freeUsed := rfl

@[simp] theorem modDrawer_pending (s : State) (l : Lane) (f : Drawer → Drawer) : (s.modDrawer l f).pending = s.pending := rfl
@[simp] theorem modDrawer_run (s : State) (l : Lane) (f : Drawer → Drawer) : (s.modDrawer l f).run = s.run := rfl
@[simp] theorem modDrawer_staging (s : State) (l : Lane) (f : Drawer → Drawer) : (s.modDrawer l f).staging = s.staging := rfl
@[simp] theorem modDrawer_journal (s : State) (l : Lane) (f : Drawer → Drawer) : (s.modDrawer l f).journal = s.journal := rfl
@[simp] theorem modDrawer_walker (s : State) (l : Lane) (f : Drawer → Drawer) : (s.modDrawer l f).walker = s.walker := rfl
@[simp] theorem modDrawer_unit (s : State) (l : Lane) (f : Drawer → Drawer) : (s.modDrawer l f).unit = s.unit := rfl
@[simp] theorem modDrawer_dma (s : State) (l : Lane) (f : Drawer → Drawer) : (s.modDrawer l f).dma = s.dma := rfl
@[simp] theorem modDrawer_hostMem (s : State) (l : Lane) (f : Drawer → Drawer) : (s.modDrawer l f).hostMem = s.hostMem := rfl
@[simp] theorem modDrawer_causeReadData (s : State) (l : Lane) (f : Drawer → Drawer) : (s.modDrawer l f).causeReadData = s.causeReadData := rfl
@[simp] theorem modDrawer_freeUsed (s : State) (l : Lane) (f : Drawer → Drawer) : (s.modDrawer l f).freeUsed = s.freeUsed := rfl

@[simp] theorem modAcceptor_pending (s : State) (l : Lane) (f : Acceptor → Acceptor) : (s.modAcceptor l f).pending = s.pending := rfl
@[simp] theorem modAcceptor_run (s : State) (l : Lane) (f : Acceptor → Acceptor) : (s.modAcceptor l f).run = s.run := rfl
@[simp] theorem modAcceptor_staging (s : State) (l : Lane) (f : Acceptor → Acceptor) : (s.modAcceptor l f).staging = s.staging := rfl
@[simp] theorem modAcceptor_journal (s : State) (l : Lane) (f : Acceptor → Acceptor) : (s.modAcceptor l f).journal = s.journal := rfl
@[simp] theorem modAcceptor_walker (s : State) (l : Lane) (f : Acceptor → Acceptor) : (s.modAcceptor l f).walker = s.walker := rfl
@[simp] theorem modAcceptor_unit (s : State) (l : Lane) (f : Acceptor → Acceptor) : (s.modAcceptor l f).unit = s.unit := rfl
@[simp] theorem modAcceptor_dma (s : State) (l : Lane) (f : Acceptor → Acceptor) : (s.modAcceptor l f).dma = s.dma := rfl
@[simp] theorem modAcceptor_hostMem (s : State) (l : Lane) (f : Acceptor → Acceptor) : (s.modAcceptor l f).hostMem = s.hostMem := rfl
@[simp] theorem modAcceptor_causeReadData (s : State) (l : Lane) (f : Acceptor → Acceptor) : (s.modAcceptor l f).causeReadData = s.causeReadData := rfl
@[simp] theorem modAcceptor_freeUsed (s : State) (l : Lane) (f : Acceptor → Acceptor) : (s.modAcceptor l f).freeUsed = s.freeUsed := rfl

@[simp] theorem laneRewrite_pending (s : State) (l : Lane) : (s.laneRewrite l).pending = s.pending := rfl
@[simp] theorem laneRewrite_run (s : State) (l : Lane) : (s.laneRewrite l).run = s.run := rfl
@[simp] theorem laneRewrite_staging (s : State) (l : Lane) : (s.laneRewrite l).staging = s.staging := rfl
@[simp] theorem laneRewrite_journal (s : State) (l : Lane) : (s.laneRewrite l).journal = s.journal := rfl
@[simp] theorem laneRewrite_walker (s : State) (l : Lane) : (s.laneRewrite l).walker = s.walker := rfl
@[simp] theorem laneRewrite_unit (s : State) (l : Lane) : (s.laneRewrite l).unit = s.unit := rfl
@[simp] theorem laneRewrite_dma (s : State) (l : Lane) : (s.laneRewrite l).dma = s.dma := rfl
@[simp] theorem laneRewrite_hostMem (s : State) (l : Lane) : (s.laneRewrite l).hostMem = s.hostMem := rfl
@[simp] theorem laneRewrite_causeReadData (s : State) (l : Lane) : (s.laneRewrite l).causeReadData = s.causeReadData := rfl
@[simp] theorem laneRewrite_freeUsed (s : State) (l : Lane) : (s.laneRewrite l).freeUsed = s.freeUsed := rfl

@[simp] theorem restartIdle_pending (s : State) (l : Lane) : (s.restartIdle l).pending = s.pending := rfl
@[simp] theorem restartIdle_run (s : State) (l : Lane) : (s.restartIdle l).run = s.run := rfl
@[simp] theorem restartIdle_staging (s : State) (l : Lane) : (s.restartIdle l).staging = s.staging := rfl
@[simp] theorem restartIdle_journal (s : State) (l : Lane) : (s.restartIdle l).journal = s.journal := rfl
@[simp] theorem restartIdle_walker (s : State) (l : Lane) : (s.restartIdle l).walker = s.walker := rfl
@[simp] theorem restartIdle_unit (s : State) (l : Lane) : (s.restartIdle l).unit = s.unit := rfl
@[simp] theorem restartIdle_dma (s : State) (l : Lane) : (s.restartIdle l).dma = s.dma := rfl
@[simp] theorem restartIdle_hostMem (s : State) (l : Lane) : (s.restartIdle l).hostMem = s.hostMem := rfl
@[simp] theorem restartIdle_causeReadData (s : State) (l : Lane) : (s.restartIdle l).causeReadData = s.causeReadData := rfl
@[simp] theorem restartIdle_freeUsed (s : State) (l : Lane) : (s.restartIdle l).freeUsed = s.freeUsed := rfl

@[simp] theorem devRewrite_pending (s : State) : (s.devRewrite).pending = s.pending := rfl
@[simp] theorem devRewrite_run (s : State) : (s.devRewrite).run = s.run := rfl
@[simp] theorem devRewrite_lanes (s : State) : (s.devRewrite).lanes = s.lanes := rfl
@[simp] theorem devRewrite_staging (s : State) : (s.devRewrite).staging = s.staging := rfl
@[simp] theorem devRewrite_journal (s : State) : (s.devRewrite).journal = s.journal := rfl
@[simp] theorem devRewrite_walker (s : State) : (s.devRewrite).walker = s.walker := rfl
@[simp] theorem devRewrite_dma (s : State) : (s.devRewrite).dma = s.dma := rfl
@[simp] theorem devRewrite_hostMem (s : State) : (s.devRewrite).hostMem = s.hostMem := rfl
@[simp] theorem devRewrite_causeReadData (s : State) : (s.devRewrite).causeReadData = s.causeReadData := rfl
@[simp] theorem devRewrite_freeUsed (s : State) : (s.devRewrite).freeUsed = s.freeUsed := rfl

@[simp] theorem raise_pending (s : State) (c : Cause) : (s.raise c).pending = s.pending := rfl
@[simp] theorem raise_lanes (s : State) (c : Cause) : (s.raise c).lanes = s.lanes := rfl
@[simp] theorem raise_staging (s : State) (c : Cause) : (s.raise c).staging = s.staging := rfl
@[simp] theorem raise_journal (s : State) (c : Cause) : (s.raise c).journal = s.journal := rfl
@[simp] theorem raise_walker (s : State) (c : Cause) : (s.raise c).walker = s.walker := rfl
@[simp] theorem raise_unit (s : State) (c : Cause) : (s.raise c).unit = s.unit := rfl
@[simp] theorem raise_dma (s : State) (c : Cause) : (s.raise c).dma = s.dma := rfl
@[simp] theorem raise_hostMem (s : State) (c : Cause) : (s.raise c).hostMem = s.hostMem := rfl
@[simp] theorem raise_causeReadData (s : State) (c : Cause) : (s.raise c).causeReadData = s.causeReadData := rfl
@[simp] theorem raise_freeUsed (s : State) (c : Cause) : (s.raise c).freeUsed = s.freeUsed := rfl

@[simp] theorem recordStall_pending (s : State) (w : StallOwner) (r : StallReason) (o : Word32) : (s.recordStall w r o).pending = s.pending := rfl
@[simp] theorem recordStall_run (s : State) (w : StallOwner) (r : StallReason) (o : Word32) : (s.recordStall w r o).run = s.run := rfl
@[simp] theorem recordStall_lanes (s : State) (w : StallOwner) (r : StallReason) (o : Word32) : (s.recordStall w r o).lanes = s.lanes := rfl
@[simp] theorem recordStall_staging (s : State) (w : StallOwner) (r : StallReason) (o : Word32) : (s.recordStall w r o).staging = s.staging := rfl
@[simp] theorem recordStall_journal (s : State) (w : StallOwner) (r : StallReason) (o : Word32) : (s.recordStall w r o).journal = s.journal := rfl
@[simp] theorem recordStall_walker (s : State) (w : StallOwner) (r : StallReason) (o : Word32) : (s.recordStall w r o).walker = s.walker := rfl
@[simp] theorem recordStall_dma (s : State) (w : StallOwner) (r : StallReason) (o : Word32) : (s.recordStall w r o).dma = s.dma := rfl
@[simp] theorem recordStall_hostMem (s : State) (w : StallOwner) (r : StallReason) (o : Word32) : (s.recordStall w r o).hostMem = s.hostMem := rfl
@[simp] theorem recordStall_causeReadData (s : State) (w : StallOwner) (r : StallReason) (o : Word32) : (s.recordStall w r o).causeReadData = s.causeReadData := rfl
@[simp] theorem recordStall_freeUsed (s : State) (w : StallOwner) (r : StallReason) (o : Word32) : (s.recordStall w r o).freeUsed = s.freeUsed := rfl

@[simp] theorem clearStall_pending (s : State) (w : StallOwner) : (s.clearStall w).pending = s.pending := by unfold State.clearStall; split <;> rfl
@[simp] theorem clearStall_run (s : State) (w : StallOwner) : (s.clearStall w).run = s.run := by unfold State.clearStall; split <;> rfl
@[simp] theorem clearStall_lanes (s : State) (w : StallOwner) : (s.clearStall w).lanes = s.lanes := by unfold State.clearStall; split <;> rfl
@[simp] theorem clearStall_staging (s : State) (w : StallOwner) : (s.clearStall w).staging = s.staging := by unfold State.clearStall; split <;> rfl
@[simp] theorem clearStall_journal (s : State) (w : StallOwner) : (s.clearStall w).journal = s.journal := by unfold State.clearStall; split <;> rfl
@[simp] theorem clearStall_walker (s : State) (w : StallOwner) : (s.clearStall w).walker = s.walker := by unfold State.clearStall; split <;> rfl
@[simp] theorem clearStall_dma (s : State) (w : StallOwner) : (s.clearStall w).dma = s.dma := by unfold State.clearStall; split <;> rfl
@[simp] theorem clearStall_hostMem (s : State) (w : StallOwner) : (s.clearStall w).hostMem = s.hostMem := by unfold State.clearStall; split <;> rfl
@[simp] theorem clearStall_causeReadData (s : State) (w : StallOwner) : (s.clearStall w).causeReadData = s.causeReadData := by unfold State.clearStall; split <;> rfl
@[simp] theorem clearStall_freeUsed (s : State) (w : StallOwner) : (s.clearStall w).freeUsed = s.freeUsed := by unfold State.clearStall; split <;> rfl

@[simp] theorem request_pending (s : State) (w : Requester) (r : Request) : (s.request w r).pending = s.pending := by cases w <;> rfl
@[simp] theorem request_run (s : State) (w : Requester) (r : Request) : (s.request w r).run = s.run := by cases w <;> rfl
@[simp] theorem request_lanes (s : State) (w : Requester) (r : Request) : (s.request w r).lanes = s.lanes := by cases w <;> rfl
@[simp] theorem request_staging (s : State) (w : Requester) (r : Request) : (s.request w r).staging = s.staging := by cases w <;> rfl
@[simp] theorem request_journal (s : State) (w : Requester) (r : Request) : (s.request w r).journal = s.journal := by cases w <;> rfl
@[simp] theorem request_walker (s : State) (w : Requester) (r : Request) : (s.request w r).walker = s.walker := by cases w <;> rfl
@[simp] theorem request_unit (s : State) (w : Requester) (r : Request) : (s.request w r).unit = s.unit := by cases w <;> rfl
@[simp] theorem request_hostMem (s : State) (w : Requester) (r : Request) : (s.request w r).hostMem = s.hostMem := by cases w <;> rfl
@[simp] theorem request_causeReadData (s : State) (w : Requester) (r : Request) : (s.request w r).causeReadData = s.causeReadData := by cases w <;> rfl
@[simp] theorem request_freeUsed (s : State) (w : Requester) (r : Request) : (s.request w r).freeUsed = s.freeUsed := by cases w <;> rfl

@[simp] theorem grant_pending (s : State) : (s.grant).pending = s.pending := by unfold State.grant; repeat (first | rfl | split)
@[simp] theorem grant_run (s : State) : (s.grant).run = s.run := by unfold State.grant; repeat (first | rfl | split)
@[simp] theorem grant_lanes (s : State) : (s.grant).lanes = s.lanes := by unfold State.grant; repeat (first | rfl | split)
@[simp] theorem grant_staging (s : State) : (s.grant).staging = s.staging := by unfold State.grant; repeat (first | rfl | split)
@[simp] theorem grant_journal (s : State) : (s.grant).journal = s.journal := by unfold State.grant; repeat (first | rfl | split)
@[simp] theorem grant_walker (s : State) : (s.grant).walker = s.walker := by unfold State.grant; repeat (first | rfl | split)
@[simp] theorem grant_unit (s : State) : (s.grant).unit = s.unit := by unfold State.grant; repeat (first | rfl | split)
@[simp] theorem grant_hostMem (s : State) : (s.grant).hostMem = s.hostMem := by unfold State.grant; repeat (first | rfl | split)
@[simp] theorem grant_causeReadData (s : State) : (s.grant).causeReadData = s.causeReadData := by unfold State.grant; repeat (first | rfl | split)
@[simp] theorem grant_freeUsed (s : State) : (s.grant).freeUsed = s.freeUsed := by unfold State.grant; repeat (first | rfl | split)

@[simp] theorem complete_pending (s : State) : (s.complete).pending = s.pending := by unfold State.complete; split <;> rfl
@[simp] theorem complete_run (s : State) : (s.complete).run = s.run := by unfold State.complete; split <;> rfl
@[simp] theorem complete_lanes (s : State) : (s.complete).lanes = s.lanes := by unfold State.complete; split <;> rfl
@[simp] theorem complete_staging (s : State) : (s.complete).staging = s.staging := by unfold State.complete; split <;> rfl
@[simp] theorem complete_journal (s : State) : (s.complete).journal = s.journal := by unfold State.complete; split <;> rfl
@[simp] theorem complete_walker (s : State) : (s.complete).walker = s.walker := by unfold State.complete; split <;> rfl
@[simp] theorem complete_unit (s : State) : (s.complete).unit = s.unit := by unfold State.complete; split <;> rfl
@[simp] theorem complete_causeReadData (s : State) : (s.complete).causeReadData = s.causeReadData := by unfold State.complete; split <;> rfl
@[simp] theorem complete_freeUsed (s : State) : (s.complete).freeUsed = s.freeUsed := by unfold State.complete; split <;> rfl

@[simp] theorem abandon_pending (s : State) : (s.abandon).pending = s.pending := by unfold State.abandon; split <;> rfl
@[simp] theorem abandon_run (s : State) : (s.abandon).run = s.run := by unfold State.abandon; split <;> rfl
@[simp] theorem abandon_lanes (s : State) : (s.abandon).lanes = s.lanes := by unfold State.abandon; split <;> rfl
@[simp] theorem abandon_staging (s : State) : (s.abandon).staging = s.staging := by unfold State.abandon; split <;> rfl
@[simp] theorem abandon_journal (s : State) : (s.abandon).journal = s.journal := by unfold State.abandon; split <;> rfl
@[simp] theorem abandon_walker (s : State) : (s.abandon).walker = s.walker := by unfold State.abandon; split <;> rfl
@[simp] theorem abandon_unit (s : State) : (s.abandon).unit = s.unit := by unfold State.abandon; split <;> rfl
@[simp] theorem abandon_causeReadData (s : State) : (s.abandon).causeReadData = s.causeReadData := by unfold State.abandon; split <;> rfl

@[simp] theorem testHigh_pending (s : State) : (s.testHigh).pending = s.pending := by unfold State.testHigh; split <;> rfl
@[simp] theorem testHigh_run (s : State) : (s.testHigh).run = s.run := by unfold State.testHigh; split <;> rfl
@[simp] theorem testHigh_lanes (s : State) : (s.testHigh).lanes = s.lanes := by unfold State.testHigh; split <;> rfl
@[simp] theorem testHigh_journal (s : State) : (s.testHigh).journal = s.journal := by unfold State.testHigh; split <;> rfl
@[simp] theorem testHigh_walker (s : State) : (s.testHigh).walker = s.walker := by unfold State.testHigh; split <;> rfl
@[simp] theorem testHigh_unit (s : State) : (s.testHigh).unit = s.unit := by unfold State.testHigh; split <;> rfl
@[simp] theorem testHigh_dma (s : State) : (s.testHigh).dma = s.dma := by unfold State.testHigh; split <;> rfl
@[simp] theorem testHigh_hostMem (s : State) : (s.testHigh).hostMem = s.hostMem := by unfold State.testHigh; split <;> rfl
@[simp] theorem testHigh_causeReadData (s : State) : (s.testHigh).causeReadData = s.causeReadData := by unfold State.testHigh; split <;> rfl
@[simp] theorem testHigh_freeUsed (s : State) : (s.testHigh).freeUsed = s.freeUsed := by unfold State.testHigh; split <;> rfl

@[simp] theorem stage_pending (s : State) (l : Lane) (b : RecordBody) : (s.stage l b).pending = s.pending := by simp [State.stage]
@[simp] theorem stage_run (s : State) (l : Lane) (b : RecordBody) : (s.stage l b).run = s.run := by simp [State.stage]
@[simp] theorem stage_journal (s : State) (l : Lane) (b : RecordBody) : (s.stage l b).journal = s.journal := by simp [State.stage]
@[simp] theorem stage_walker (s : State) (l : Lane) (b : RecordBody) : (s.stage l b).walker = s.walker := by simp [State.stage]
@[simp] theorem stage_unit (s : State) (l : Lane) (b : RecordBody) : (s.stage l b).unit = s.unit := by simp [State.stage]
@[simp] theorem stage_dma (s : State) (l : Lane) (b : RecordBody) : (s.stage l b).dma = s.dma := by simp [State.stage]
@[simp] theorem stage_hostMem (s : State) (l : Lane) (b : RecordBody) : (s.stage l b).hostMem = s.hostMem := by simp [State.stage]
@[simp] theorem stage_causeReadData (s : State) (l : Lane) (b : RecordBody) : (s.stage l b).causeReadData = s.causeReadData := by simp [State.stage]
@[simp] theorem stage_freeUsed (s : State) (l : Lane) (b : RecordBody) : (s.stage l b).freeUsed = s.freeUsed := by simp [State.stage]

@[simp] theorem stageDevice_pending (s : State) (b : RecordBody) : (s.stageDevice b).pending = s.pending := by simp [State.stageDevice]
@[simp] theorem stageDevice_run (s : State) (b : RecordBody) : (s.stageDevice b).run = s.run := by simp [State.stageDevice]
@[simp] theorem stageDevice_lanes (s : State) (b : RecordBody) : (s.stageDevice b).lanes = s.lanes := by simp [State.stageDevice]
@[simp] theorem stageDevice_journal (s : State) (b : RecordBody) : (s.stageDevice b).journal = s.journal := by simp [State.stageDevice]
@[simp] theorem stageDevice_walker (s : State) (b : RecordBody) : (s.stageDevice b).walker = s.walker := by simp [State.stageDevice]
@[simp] theorem stageDevice_unit (s : State) (b : RecordBody) : (s.stageDevice b).unit = s.unit := by simp [State.stageDevice]
@[simp] theorem stageDevice_dma (s : State) (b : RecordBody) : (s.stageDevice b).dma = s.dma := by simp [State.stageDevice]
@[simp] theorem stageDevice_hostMem (s : State) (b : RecordBody) : (s.stageDevice b).hostMem = s.hostMem := by simp [State.stageDevice]
@[simp] theorem stageDevice_causeReadData (s : State) (b : RecordBody) : (s.stageDevice b).causeReadData = s.causeReadData := by simp [State.stageDevice]
@[simp] theorem stageDevice_freeUsed (s : State) (b : RecordBody) : (s.stageDevice b).freeUsed = s.freeUsed := by simp [State.stageDevice]

@[simp] theorem count_pending (s : State) (l : Lane) (c : Counter) : (s.count l c).pending = s.pending := by simp only [State.count]; split <;> [rfl; (split <;> rfl)]
@[simp] theorem count_staging (s : State) (l : Lane) (c : Counter) : (s.count l c).staging = s.staging := by simp only [State.count]; split <;> [rfl; (split <;> rfl)]
@[simp] theorem count_journal (s : State) (l : Lane) (c : Counter) : (s.count l c).journal = s.journal := by simp only [State.count]; split <;> [rfl; (split <;> rfl)]
@[simp] theorem count_walker (s : State) (l : Lane) (c : Counter) : (s.count l c).walker = s.walker := by simp only [State.count]; split <;> [rfl; (split <;> rfl)]
@[simp] theorem count_unit (s : State) (l : Lane) (c : Counter) : (s.count l c).unit = s.unit := by simp only [State.count]; split <;> [rfl; (split <;> rfl)]
@[simp] theorem count_dma (s : State) (l : Lane) (c : Counter) : (s.count l c).dma = s.dma := by simp only [State.count]; split <;> [rfl; (split <;> rfl)]
@[simp] theorem count_hostMem (s : State) (l : Lane) (c : Counter) : (s.count l c).hostMem = s.hostMem := by simp only [State.count]; split <;> [rfl; (split <;> rfl)]
@[simp] theorem count_causeReadData (s : State) (l : Lane) (c : Counter) : (s.count l c).causeReadData = s.causeReadData := by simp only [State.count]; split <;> [rfl; (split <;> rfl)]
@[simp] theorem count_freeUsed (s : State) (l : Lane) (c : Counter) : (s.count l c).freeUsed = s.freeUsed := by simp only [State.count]; split <;> [rfl; (split <;> rfl)]

@[simp] theorem lose_pending (s : State) (l : Lane) (c : Nat) : (s.lose l c).pending = s.pending := by simp [State.lose]
@[simp] theorem lose_staging (s : State) (l : Lane) (c : Nat) : (s.lose l c).staging = s.staging := by simp [State.lose]
@[simp] theorem lose_journal (s : State) (l : Lane) (c : Nat) : (s.lose l c).journal = s.journal := by simp [State.lose]
@[simp] theorem lose_walker (s : State) (l : Lane) (c : Nat) : (s.lose l c).walker = s.walker := by simp [State.lose]
@[simp] theorem lose_unit (s : State) (l : Lane) (c : Nat) : (s.lose l c).unit = s.unit := by simp [State.lose]
@[simp] theorem lose_dma (s : State) (l : Lane) (c : Nat) : (s.lose l c).dma = s.dma := by simp [State.lose]
@[simp] theorem lose_hostMem (s : State) (l : Lane) (c : Nat) : (s.lose l c).hostMem = s.hostMem := by simp [State.lose]
@[simp] theorem lose_causeReadData (s : State) (l : Lane) (c : Nat) : (s.lose l c).causeReadData = s.causeReadData := by simp [State.lose]
@[simp] theorem lose_freeUsed (s : State) (l : Lane) (c : Nat) : (s.lose l c).freeUsed = s.freeUsed := by simp [State.lose]

@[simp] theorem offer_pending (s : State) (l : Lane) (b : RecordBody) : (s.offer l b).pending = s.pending := by simp only [State.offer]; split <;> [(split <;> simp); rfl]
@[simp] theorem offer_journal (s : State) (l : Lane) (b : RecordBody) : (s.offer l b).journal = s.journal := by simp only [State.offer]; split <;> [(split <;> simp); rfl]
@[simp] theorem offer_walker (s : State) (l : Lane) (b : RecordBody) : (s.offer l b).walker = s.walker := by simp only [State.offer]; split <;> [(split <;> simp); rfl]
@[simp] theorem offer_unit (s : State) (l : Lane) (b : RecordBody) : (s.offer l b).unit = s.unit := by simp only [State.offer]; split <;> [(split <;> simp); rfl]
@[simp] theorem offer_dma (s : State) (l : Lane) (b : RecordBody) : (s.offer l b).dma = s.dma := by simp only [State.offer]; split <;> [(split <;> simp); rfl]
@[simp] theorem offer_hostMem (s : State) (l : Lane) (b : RecordBody) : (s.offer l b).hostMem = s.hostMem := by simp only [State.offer]; split <;> [(split <;> simp); rfl]
@[simp] theorem offer_causeReadData (s : State) (l : Lane) (b : RecordBody) : (s.offer l b).causeReadData = s.causeReadData := by simp only [State.offer]; split <;> [(split <;> simp); rfl]
@[simp] theorem offer_freeUsed (s : State) (l : Lane) (b : RecordBody) : (s.offer l b).freeUsed = s.freeUsed := by simp only [State.offer]; split <;> [(split <;> simp); rfl]

end Sys2Proof.Machine
end

