-- ==== Sys2Proof/Laws/LaneStep.lean ====
section
/-! SUPPORT. `LaneStep`: the frame of a lane's event together with the lane invariants it keeps, closed under composition; and
the shared operations that every lane event is made of. -/

namespace Sys2Proof.Machine

/-- `keysOk` for an image that may hold as many as `b` keys above the rollover limit, as between a reload's new limit and the
trimming that follows it (R36). -/
def LaneUnit.keysUpTo (u : LaneUnit) (b : Nat) : Prop :=
  (u.kb.mode ≠ .scanning → u.kb.image = [] ∧ u.kb.blocked = []) ∧ u.kb.image.length ≤ max b u.settings.rollover

/-- `ok` but for the keys, of which `b` may be in the image whatever the rollover limit. -/
def LaneUnit.okUpTo (u : LaneUnit) (b : Nat) : Prop := u.drawer.ok ∧ u.portA.ok ∧ u.portB.ok ∧ u.keysUpTo b

theorem okUpTo_zero (u : LaneUnit) : u.okUpTo 0 ↔ u.ok := by
  simp [LaneUnit.okUpTo, LaneUnit.ok, LaneUnit.keysUpTo, LaneUnit.keysOk]

theorem LaneUnit.okUpTo.mono {u : LaneUnit} {b c : Nat} (h : u.okUpTo b) (hc : b ≤ c) : u.okUpTo c :=
  ⟨h.1, h.2.1, h.2.2.1, h.2.2.2.1, by have := h.2.2.2.2; omega⟩

/-- A lane event: its frame, and every lane that is `ok` stays so, whatever its image may hold. -/
structure LaneStep (on : Lane → Prop) (s t : State) : Prop extends LaneFrame on s t where
  keepsUpTo : ∀ m b, (s.lane m).okUpTo b → (t.lane m).okUpTo b

theorem LaneStep.keeps {on : Lane → Prop} {s t : State} (h : LaneStep on s t) (m : Lane) (hm : (s.lane m).ok) : (t.lane m).ok :=
  (okUpTo_zero _).1 (h.keepsUpTo m 0 ((okUpTo_zero _).2 hm))

/-- The lane unit keeps what only a load or a reset changes, and its record sequence. -/
def SameSettings (u v : LaneUnit) : Prop :=
  v.configured = u.configured ∧ v.settings = u.settings ∧ v.clamped = u.clamped ∧ v.held = u.held ∧ v.store = u.store ∧
    v.seq = u.seq

theorem SameSettings.refl (u : LaneUnit) : SameSettings u u := ⟨rfl, rfl, rfl, rfl, rfl, rfl⟩

/-! ## Sequences (R103) -/

/-- One record more at the tail, under the next sequence. -/
theorem NumberedBelow.append {rs : List StagedRecord} {r : StagedRecord} {n : BitVec 16} (h : NumberedBelow rs n) (hr : r.seq = n) :
    NumberedBelow (rs ++ [r]) (n + 1) := by
  intro i q hq
  rw [List.getElem?_append] at hq
  have len : (rs ++ [r]).length = rs.length + 1 := by simp
  split at hq
  · next hi =>
    rw [h i q hq, len]
    have e : rs.length + 1 - i = rs.length - i + 1 := by omega
    rw [e]
    bv_omega
  · next hi =>
    have e : i = rs.length := by
      by_contra hne
      rw [List.getElem?_eq_none (by simp; omega)] at hq
      cases hq
    subst e
    simp only [Nat.sub_self, List.getElem?_cons_zero, Option.some.injEq] at hq
    subst hq
    rw [len, hr]
    have e : rs.length + 1 - rs.length = 1 := by omega
    rw [e]
    bv_omega

/-- The head record gone. -/
theorem NumberedBelow.tail {rs : List StagedRecord} {r : StagedRecord} {n : BitVec 16} (h : NumberedBelow (r :: rs) n) :
    NumberedBelow rs n := by
  intro i q hq
  have := h (i + 1) q (by simpa using hq)
  rw [this]
  congr 2
  simp

theorem NumberedBelow.nil (n : BitVec 16) : NumberedBelow [] n := by
  intro i r h
  simp at h

/-- The sequences rest on the queue and the counts alone. -/
theorem State.seqOk.congr {s t : State} (h : s.seqOk) (hq : t.staging.queue = s.staging.queue)
    (hd : t.staging.devSeq = s.staging.devSeq) (hs : ∀ m, (t.lane m).seq = (s.lane m).seq) : t.seqOk :=
  ⟨fun m => by rw [hq, hs]; exact h.1 m, by rw [hq, hd]; exact h.2⟩

/-- An empty queue has no sequence to keep. -/
theorem seqOk_empty {s : State} (h : s.staging.queue = []) : s.seqOk :=
  ⟨fun m => by rw [h]; exact NumberedBelow.nil _, by rw [h]; exact NumberedBelow.nil _⟩

/-- A record of lane `l` enters under the lane's sequence, which advances (R103). -/
theorem State.seqOk.append {s t : State} (h : s.seqOk) {l : Lane} {r : StagedRecord} (hr : r.lane = some l) (hn : r.seq = (s.lane l).seq)
    (hq : t.staging.queue = s.staging.queue ++ [r]) (hd : t.staging.devSeq = s.staging.devSeq)
    (hs : ∀ m, (t.lane m).seq = if m = l then (s.lane l).seq + 1 else (s.lane m).seq) : t.seqOk := by
  refine ⟨fun m => ?_, ?_⟩
  · rw [hq, hs, List.filter_append]
    by_cases e : m = l
    · subst e
      rw [if_pos rfl]
      have : [r].filter (fun r => decide (r.lane = some m)) = [r] := by simp [hr]
      rw [this]
      exact (h.1 m).append hn
    · rw [if_neg e]
      have : [r].filter (fun r => decide (r.lane = some m)) = [] := by simp [hr, Ne.symm e]
      rw [this, List.append_nil]
      exact h.1 m
  · rw [hq, hd, List.filter_append]
    have : [r].filter (fun r => decide (r.lane = none)) = [] := by simp [hr]
    rw [this, List.append_nil]
    exact h.2

/-- A record of lane 0xFF enters under the device's sequence, which advances (R103). -/
theorem State.seqOk.appendDevice {s t : State} (h : s.seqOk) {r : StagedRecord} (hr : r.lane = none) (hn : r.seq = s.staging.devSeq)
    (hq : t.staging.queue = s.staging.queue ++ [r]) (hd : t.staging.devSeq = s.staging.devSeq + 1)
    (hs : ∀ m, (t.lane m).seq = (s.lane m).seq) : t.seqOk := by
  refine ⟨fun m => ?_, ?_⟩
  · rw [hq, hs, List.filter_append]
    have : [r].filter (fun r => decide (r.lane = some m)) = [] := by simp [hr]
    rw [this, List.append_nil]
    exact h.1 m
  · rw [hq, hd, List.filter_append]
    have : [r].filter (fun r => decide (r.lane = none)) = [r] := by simp [hr]
    rw [this]
    exact h.2.append hn

/-- The head record leaves the queue (R104). -/
theorem State.seqOk.leave {s t : State} (h : s.seqOk) {r : StagedRecord} {rest : List StagedRecord} (he : s.staging.queue = r :: rest)
    (hq : t.staging.queue = rest) (hd : t.staging.devSeq = s.staging.devSeq) (hs : ∀ m, (t.lane m).seq = (s.lane m).seq) : t.seqOk := by
  have drop : ∀ (f : StagedRecord → Bool) (n : BitVec 16), NumberedBelow ((r :: rest).filter f) n → NumberedBelow (rest.filter f) n := by
    intro f n hf
    rw [List.filter_cons] at hf
    split at hf
    · exact hf.tail
    · exact hf
  obtain ⟨h1, h2⟩ := h
  rw [he] at h1 h2
  exact ⟨fun m => by rw [hq, hs]; exact drop _ _ (h1 m), by rw [hq, hd]; exact drop _ _ h2⟩

theorem LaneFrame.refl (on : Lane → Prop) (s : State) : LaneFrame on s s where
  pending := rfl
  run := rfl
  causes := by simp
  others _ _ := rfl
  settings _ := ⟨rfl, rfl, rfl, rfl, rfl⟩
  staging := rfl
  records := ⟨[], by simp, by simp⟩
  produced _ := rfl
  fill h := h
  numbered h := h
  hold h := h
  journal := rfl
  walker := rfl
  unit := rfl
  dma := rfl
  hostMem := rfl
  causeReadData := rfl
  freeUsed := rfl

theorem LaneFrame.device {on : Lane → Prop} {s t : State} (h : LaneFrame on s t) : t.run.device = s.run.device := by
  rw [h.run]

theorem LaneFrame.clock {on : Lane → Prop} {s t : State} (h : LaneFrame on s t) : t.run.clock = s.run.clock := by
  rw [h.run]

theorem LaneFrame.inRun {on : Lane → Prop} {s t : State} (h : LaneFrame on s t) : t.inRun = s.inRun := by
  simp [State.inRun, h.device]

theorem LaneFrame.trans {on : Lane → Prop} {s t u : State} (a : LaneFrame on s t) (b : LaneFrame on t u) :
    LaneFrame on s u where
  pending := b.pending.trans a.pending
  run := by rw [b.run, a.run]
  causes := by
    have ha := a.causes
    have hb := b.causes
    rw [← hb, ← ha]
    ext i
    simp
    grind
  others m h := (b.others m h).trans (a.others m h)
  settings m :=
    ⟨(b.settings m).1.trans (a.settings m).1, (b.settings m).2.1.trans (a.settings m).2.1,
      (b.settings m).2.2.1.trans (a.settings m).2.2.1, (b.settings m).2.2.2.1.trans (a.settings m).2.2.2.1,
      (b.settings m).2.2.2.2.trans (a.settings m).2.2.2.2⟩
  staging := by rw [b.staging, a.staging]
  records := by
    obtain ⟨rs, h1, h2⟩ := a.records
    obtain ⟨qs, h3, h4⟩ := b.records
    refine ⟨rs ++ qs, by rw [h3, h1, List.append_assoc], ?_⟩
    intro r hr
    rcases List.mem_append.1 hr with h | h
    · exact h2 r h
    · exact h4 r h
  produced h := (b.produced (a.inRun.trans h)).trans (a.produced h)
  fill h := b.fill (a.fill h)
  numbered h := b.numbered (a.numbered h)
  hold h := b.hold (a.hold h)
  journal := b.journal.trans a.journal
  walker := b.walker.trans a.walker
  unit := b.unit.trans a.unit
  dma := b.dma.trans a.dma
  hostMem := b.hostMem.trans a.hostMem
  causeReadData := b.causeReadData.trans a.causeReadData
  freeUsed := b.freeUsed.trans a.freeUsed

theorem LaneStep.refl (on : Lane → Prop) (s : State) : LaneStep on s s :=
  { LaneFrame.refl on s with keepsUpTo := fun _ _ h => h }

theorem LaneStep.trans {on : Lane → Prop} {s t u : State} (a : LaneStep on s t) (b : LaneStep on t u) : LaneStep on s u :=
  { a.toLaneFrame.trans b.toLaneFrame with keepsUpTo := fun m k h => b.keepsUpTo m k (a.keepsUpTo m k h) }

/-- A lane event of fewer lanes is one of more. -/
theorem LaneStep.mono {on off : Lane → Prop} {s t : State} (a : LaneStep on s t) (h : ∀ m, on m → off m) : LaneStep off s t :=
  { a with
    others := fun m hm => a.others m fun x => hm (h m x)
    records := by
      obtain ⟨rs, h1, h2⟩ := a.records
      exact ⟨rs, h1, fun r hr => let ⟨m, x, y⟩ := h2 r hr; ⟨m, h m x, y⟩⟩ }

/-- A fold of lane events is a lane event. -/
theorem LaneStep.foldl {on : Lane → Prop} {α : Type} (f : State → α → State) (h : ∀ s a, LaneStep on s (f s a)) :
    ∀ (as : List α) (s : State), LaneStep on s (as.foldl f s)
  | [], s => LaneStep.refl on s
  | a :: as, s => (h s a).trans (LaneStep.foldl f h as (f s a))

/-- Lane events of each lane in turn are a lane event of all. -/
theorem LaneStep.forLanes (f : Lane → State → State) (h : ∀ l s, LaneStep (only l) s (f l s)) (s : State) :
    LaneStep (fun _ => True) s (s.forLanes f) :=
  LaneStep.foldl _ (fun s l => (h l s).mono fun _ _ => trivial) _ s

/-! ## Stamped records (R103) -/

@[simp] theorem stamped_nil (l : Lane) (now : Word32) (seq : BitVec 16) : stamped l now seq [] = [] := rfl

@[simp] theorem stamped_length (l : Lane) (now : Word32) (seq : BitVec 16) (bs : List RecordBody) :
    (stamped l now seq bs).length = bs.length := List.length_mapIdx

@[simp] theorem stamped_singleton (l : Lane) (now : Word32) (seq : BitVec 16) (b : RecordBody) :
    stamped l now seq [b] = [⟨b, some l, now, seq⟩] := by simp [stamped]

/-- The records behind others go on with their sequences. -/
theorem stamped_append (l : Lane) (now : Word32) (seq : BitVec 16) (as bs : List RecordBody) :
    stamped l now seq (as ++ bs) = stamped l now seq as ++ stamped l now (seq + BitVec.ofNat 16 as.length) bs := by
  simp only [stamped, List.mapIdx_append]
  congr 2
  funext i b
  rw [BitVec.add_assoc, ← BitVec.ofNat_add, Nat.add_comm]

/-! ## The lane unit -/

/-- A lane unit replaced by one with the same settings, that is `ok` when the old one is. -/
theorem LaneStep.setLane {s : State} {l : Lane} {u : LaneUnit} (hu : SameSettings (s.lane l) u)
    (hk : ∀ b, (s.lane l).okUpTo b → u.okUpTo b) : LaneStep (only l) s (s.setLane l u) where
  pending := rfl
  run := rfl
  causes := by simp
  others m h := lane_setLane_ne s u h
  settings m := by
    rw [lane_setLane]
    split
    · next e => subst e; exact ⟨hu.1, hu.2.1, hu.2.2.1, hu.2.2.2.1, hu.2.2.2.2.1⟩
    · exact ⟨rfl, rfl, rfl, rfl, rfl⟩
  staging := rfl
  records := ⟨[], by simp, by simp⟩
  produced _ := rfl
  fill h := h
  numbered h := h.congr rfl rfl fun m => by
    rw [lane_setLane]
    split
    · next e => subst e; exact hu.2.2.2.2.2
    · rfl
  hold h := h
  journal := rfl
  walker := rfl
  unit := rfl
  dma := rfl
  hostMem := rfl
  causeReadData := rfl
  freeUsed := rfl
  keepsUpTo m b h := by
    rw [lane_setLane]
    split
    · next e => subst e; exact hk b h
    · exact h

theorem LaneStep.modLane {s : State} {l : Lane} {f : LaneUnit → LaneUnit}
    (hu : SameSettings (s.lane l) (f (s.lane l))) (hk : ∀ b, (s.lane l).okUpTo b → (f (s.lane l)).okUpTo b) : LaneStep (only l) s (s.modLane l f) :=
  LaneStep.setLane hu hk

theorem LaneStep.modDrawer {s : State} {l : Lane} {f : Drawer → Drawer}
    (hk : (s.lane l).drawer.ok → (f (s.lane l).drawer).ok) : LaneStep (only l) s (s.modDrawer l f) :=
  LaneStep.modLane ⟨rfl, rfl, rfl, rfl, rfl, rfl⟩ fun _ h => ⟨hk h.1, h.2⟩

theorem LaneStep.modKb {s : State} {l : Lane} {f : Keyboard → Keyboard}
    (hk : ∀ b, (s.lane l).keysUpTo b → ({ s.lane l with kb := f (s.lane l).kb } : LaneUnit).keysUpTo b) : LaneStep (only l) s (s.modKb l f) :=
  LaneStep.modLane ⟨rfl, rfl, rfl, rfl, rfl, rfl⟩ fun b h => ⟨h.1, h.2.1, h.2.2.1, hk b h.2.2.2⟩

theorem LaneStep.modKeylock {s : State} {l : Lane} {f : Keylock → Keylock} :
    LaneStep (only l) s (s.modKeylock l f) :=
  LaneStep.modLane ⟨rfl, rfl, rfl, rfl, rfl, rfl⟩ fun _ h => h

theorem LaneStep.modAcceptor {s : State} {l : Lane} {f : Acceptor → Acceptor} :
    LaneStep (only l) s (s.modAcceptor l f) :=
  LaneStep.modLane ⟨rfl, rfl, rfl, rfl, rfl, rfl⟩ fun _ h => h

/-- A port changed: only the other port and the rest of the lane need nothing. -/
theorem LaneStep.modPort {s : State} {l : Lane} {p : Port} {f : ScanPort → ScanPort}
    (hk : ((s.lane l).port p).ok → (f ((s.lane l).port p)).ok) : LaneStep (only l) s (s.modPort l p f) := by
  cases p
  · exact LaneStep.modLane ⟨rfl, rfl, rfl, rfl, rfl, rfl⟩ fun _ h => ⟨h.1, hk h.2.1, h.2.2⟩
  · exact LaneStep.modLane ⟨rfl, rfl, rfl, rfl, rfl, rfl⟩ fun _ h => ⟨h.1, h.2.1, hk h.2.2.1, h.2.2.2⟩

theorem LaneStep.laneRewrite {l : Lane} (s : State) : LaneStep (only l) s (s.laneRewrite l) :=
  LaneStep.modLane ⟨rfl, rfl, rfl, rfl, rfl, rfl⟩ fun _ h => h

theorem LaneStep.restartIdle {l : Lane} (s : State) : LaneStep (only l) s (s.restartIdle l) := by
  refine LaneStep.modLane ?_ ?_
  · split <;> exact ⟨rfl, rfl, rfl, rfl, rfl, rfl⟩
  · split <;> exact fun _ h => h

/-! ## Causes, counters and records -/

theorem LaneStep.raise (on : Lane → Prop) (s : State) (c : Cause) : LaneStep on s (s.raise c) :=
  { LaneFrame.refl on s with
    run := rfl
    causes := by
      show (s.run.causes ||| c.bit) ||| s.run.causes = s.run.causes ||| c.bit
      rw [BitVec.or_comm, ← BitVec.or_assoc, BitVec.or_self]
    keepsUpTo := fun _ _ h => h }

theorem LaneStep.count {l : Lane} (s : State) (c : Counter) : LaneStep (only l) s (s.count l c) := by
  simp only [State.count]
  split
  · exact LaneStep.refl _ s
  · split
    · refine LaneStep.trans ?_ (LaneStep.raise _ _ _)
      exact LaneStep.setLane ⟨rfl, rfl, rfl, rfl, rfl, rfl⟩ fun _ h => h
    · exact LaneStep.setLane ⟨rfl, rfl, rfl, rfl, rfl, rfl⟩ fun _ h => h

theorem addLoss_same (u : LaneUnit) (cls : Nat) : SameSettings u (u.addLoss cls) ∧ (∀ b, u.okUpTo b → (u.addLoss cls).okUpTo b) := by
  unfold LaneUnit.addLoss
  split <;> exact ⟨⟨rfl, rfl, rfl, rfl, rfl, rfl⟩, fun _ h => h⟩

theorem LaneStep.lose {l : Lane} (s : State) (cls : Nat) : LaneStep (only l) s (s.lose l cls) :=
  (LaneStep.modLane (addLoss_same _ cls).1 (addLoss_same _ cls).2).trans (LaneStep.count _ _)

@[simp] theorem testHigh_queue (s : State) : s.testHigh.staging.queue = s.staging.queue := by
  unfold State.testHigh; split <;> rfl

@[simp] theorem testHigh_devSeq (s : State) : s.testHigh.staging.devSeq = s.staging.devSeq := by
  unfold State.testHigh; split <;> rfl

@[simp] theorem testHigh_markWaiting (s : State) : s.testHigh.staging.markWaiting = s.staging.markWaiting := by
  unfold State.testHigh; split <;> rfl

theorem testHigh_hold (s : State) :
    s.testHigh.staging.hold = (s.staging.hold || decide (s.unit.host.flowHigh ≤ s.staging.queue.length)) := by
  unfold State.testHigh; split <;> simp_all

/-- A record that enters takes the clock and the lane's sequence and stands at the tail (R103). -/
theorem stage_queue (s : State) (l : Lane) (b : RecordBody) :
    (s.stage l b).staging.queue = s.staging.queue ++ [⟨b, some l, s.run.clock, (s.lane l).seq⟩] := by
  simp [State.stage]

theorem stage_lane (s : State) (l m : Lane) (b : RecordBody) :
    (s.stage l b).lane m = if m = l then { s.lane l with seq := (s.lane l).seq + 1 } else s.lane m := by
  have : ∀ t : State, t.testHigh.lane m = t.lane m := fun t => lane_congr (testHigh_lanes t) m
  rw [State.stage, this]
  refine (lane_congr (s := s.modLane l (fun u => { u with seq := u.seq + 1 })) rfl m).trans ?_
  rw [lane_modLane]
  split
  · next e => subst e; rfl
  · rfl

/-- A record entering a queue with room, in a device state that produces it, is a lane event. -/
theorem LaneStep.stage {l : Lane} {s : State} (b : RecordBody) (hr : s.inRun = true)
    (hq : s.staging.queue.length < 96) : LaneStep (only l) s (s.stage l b) where
  pending := by simp
  run := by simp
  causes := by simp
  others m h := by
    rw [stage_lane]; exact if_neg h
  settings m := by
    rw [stage_lane]
    split
    · next e => subst e; exact ⟨rfl, rfl, rfl, rfl, rfl⟩
    · exact ⟨rfl, rfl, rfl, rfl, rfl⟩
  staging := by
    unfold State.stage State.testHigh
    split <;> rfl
  records := ⟨[_], stage_queue s l b, by simp [only]⟩
  produced h := by simp [hr] at h
  fill _ := by rw [stage_queue]; simp; omega
  numbered h := h.append rfl rfl (stage_queue s l b) (by simp [State.stage]) fun m => by
    rw [stage_lane]; split <;> rfl
  hold h := by
    rw [State.stage, testHigh_hold]
    simp [h]
  journal := by simp
  walker := by simp
  unit := by simp
  dma := by simp
  hostMem := by simp
  causeReadData := by simp
  freeUsed := by simp
  keepsUpTo m b h := by
    rw [stage_lane]
    split
    · next e => subst e; exact h
    · exact h

theorem hasRoom_lt {s : State} {l : Lane} {cls : Nat} (h : s.hasRoom l cls = true) : s.staging.queue.length < 96 := by
  unfold State.hasRoom at h
  split at h
  · simp at h; omega
  · simpa using h

theorem produced_inRun {s : State} {cls : Nat} (h : produced s.run.device cls = true) : s.inRun = true := by
  unfold produced at h
  unfold State.inRun
  split at h <;> simp_all

/-- An offer is a lane event (R100, R102, R107). -/
theorem LaneStep.offer {l : Lane} (s : State) (b : RecordBody) :
    LaneStep (only l) s (s.offer l b) := by
  unfold State.offer
  split
  · next h =>
    split
    · next h' => exact LaneStep.stage b (produced_inRun h) (hasRoom_lt h')
    · exact LaneStep.lose s _
  · exact LaneStep.refl _ s

end Sys2Proof.Machine
end

