-- ==== Sys2Proof/Laws/Records.lean ====
section
/-! SUPPORT. Which fields of a lane unit counting, losing, staging and offering leave as they are, at every lane. -/

namespace Sys2Proof.Machine

theorem count_lane (s : State) (l m : Lane) (c : Counter) :
    (s.count l c).lane m = { s.lane m with
      counters := ((s.count l c).lane m).counters
      noted := ((s.count l c).lane m).noted
      rewrite := ((s.count l c).lane m).rewrite } := by
  simp only [State.count]
  split
  · rfl
  · split
    · rw [lane_congr (raise_lanes _ _), lane_setLane]
      split
      · next e => subst e; rfl
      · rfl
    · rw [lane_setLane]
      split
      · next e => subst e; rfl
      · rfl

theorem lose_lane (s : State) (l m : Lane) (cls : Nat) :
    (s.lose l cls).lane m = { s.lane m with
      counters := ((s.lose l cls).lane m).counters
      noted := ((s.lose l cls).lane m).noted
      rewrite := ((s.lose l cls).lane m).rewrite
      losses := ((s.lose l cls).lane m).losses } := by
  rw [State.lose, count_lane, lane_modLane]
  split
  · next e => subst e; unfold LaneUnit.addLoss; split <;> rfl
  · rfl

theorem offer_lane (s : State) (l m : Lane) (b : RecordBody) :
    (s.offer l b).lane m = { s.lane m with
      counters := ((s.offer l b).lane m).counters
      noted := ((s.offer l b).lane m).noted
      rewrite := ((s.offer l b).lane m).rewrite
      seq := ((s.offer l b).lane m).seq
      losses := ((s.offer l b).lane m).losses } := by
  simp only [State.offer]
  split
  · split
    · rw [stage_lane]
      split
      · next e => subst e; rfl
      · rfl
    · rw [lose_lane]
  · rfl

@[simp] theorem count_lane_configured (s : State) (l m : Lane) (c : Counter) : ((s.count l c).lane m).configured = (s.lane m).configured := by
  rw [count_lane]
@[simp] theorem count_lane_laneState (s : State) (l m : Lane) (c : Counter) : ((s.count l c).lane m).laneState = (s.lane m).laneState := by
  rw [count_lane]
@[simp] theorem count_lane_idle (s : State) (l m : Lane) (c : Counter) : ((s.count l c).lane m).idle = (s.lane m).idle := by
  rw [count_lane]
@[simp] theorem count_lane_settings (s : State) (l m : Lane) (c : Counter) : ((s.count l c).lane m).settings = (s.lane m).settings := by
  rw [count_lane]
@[simp] theorem count_lane_clamped (s : State) (l m : Lane) (c : Counter) : ((s.count l c).lane m).clamped = (s.lane m).clamped := by
  rw [count_lane]
@[simp] theorem count_lane_held (s : State) (l m : Lane) (c : Counter) : ((s.count l c).lane m).held = (s.lane m).held := by
  rw [count_lane]
@[simp] theorem count_lane_store (s : State) (l m : Lane) (c : Counter) : ((s.count l c).lane m).store = (s.lane m).store := by
  rw [count_lane]
@[simp] theorem count_lane_keylock (s : State) (l m : Lane) (c : Counter) : ((s.count l c).lane m).keylock = (s.lane m).keylock := by
  rw [count_lane]
@[simp] theorem count_lane_kb (s : State) (l m : Lane) (c : Counter) : ((s.count l c).lane m).kb = (s.lane m).kb := by
  rw [count_lane]
@[simp] theorem count_lane_portA (s : State) (l m : Lane) (c : Counter) : ((s.count l c).lane m).portA = (s.lane m).portA := by
  rw [count_lane]
@[simp] theorem count_lane_portB (s : State) (l m : Lane) (c : Counter) : ((s.count l c).lane m).portB = (s.lane m).portB := by
  rw [count_lane]
@[simp] theorem count_lane_acceptor (s : State) (l m : Lane) (c : Counter) : ((s.count l c).lane m).acceptor = (s.lane m).acceptor := by
  rw [count_lane]
@[simp] theorem count_lane_drawer (s : State) (l m : Lane) (c : Counter) : ((s.count l c).lane m).drawer = (s.lane m).drawer := by
  rw [count_lane]

@[simp] theorem lose_lane_configured (s : State) (l m : Lane) (cls : Nat) : ((s.lose l cls).lane m).configured = (s.lane m).configured := by
  rw [lose_lane]
@[simp] theorem lose_lane_laneState (s : State) (l m : Lane) (cls : Nat) : ((s.lose l cls).lane m).laneState = (s.lane m).laneState := by
  rw [lose_lane]
@[simp] theorem lose_lane_idle (s : State) (l m : Lane) (cls : Nat) : ((s.lose l cls).lane m).idle = (s.lane m).idle := by
  rw [lose_lane]
@[simp] theorem lose_lane_settings (s : State) (l m : Lane) (cls : Nat) : ((s.lose l cls).lane m).settings = (s.lane m).settings := by
  rw [lose_lane]
@[simp] theorem lose_lane_clamped (s : State) (l m : Lane) (cls : Nat) : ((s.lose l cls).lane m).clamped = (s.lane m).clamped := by
  rw [lose_lane]
@[simp] theorem lose_lane_held (s : State) (l m : Lane) (cls : Nat) : ((s.lose l cls).lane m).held = (s.lane m).held := by
  rw [lose_lane]
@[simp] theorem lose_lane_store (s : State) (l m : Lane) (cls : Nat) : ((s.lose l cls).lane m).store = (s.lane m).store := by
  rw [lose_lane]
@[simp] theorem lose_lane_keylock (s : State) (l m : Lane) (cls : Nat) : ((s.lose l cls).lane m).keylock = (s.lane m).keylock := by
  rw [lose_lane]
@[simp] theorem lose_lane_kb (s : State) (l m : Lane) (cls : Nat) : ((s.lose l cls).lane m).kb = (s.lane m).kb := by
  rw [lose_lane]
@[simp] theorem lose_lane_portA (s : State) (l m : Lane) (cls : Nat) : ((s.lose l cls).lane m).portA = (s.lane m).portA := by
  rw [lose_lane]
@[simp] theorem lose_lane_portB (s : State) (l m : Lane) (cls : Nat) : ((s.lose l cls).lane m).portB = (s.lane m).portB := by
  rw [lose_lane]
@[simp] theorem lose_lane_acceptor (s : State) (l m : Lane) (cls : Nat) : ((s.lose l cls).lane m).acceptor = (s.lane m).acceptor := by
  rw [lose_lane]
@[simp] theorem lose_lane_drawer (s : State) (l m : Lane) (cls : Nat) : ((s.lose l cls).lane m).drawer = (s.lane m).drawer := by
  rw [lose_lane]

@[simp] theorem offer_lane_configured (s : State) (l m : Lane) (b : RecordBody) : ((s.offer l b).lane m).configured = (s.lane m).configured := by
  rw [offer_lane]
@[simp] theorem offer_lane_laneState (s : State) (l m : Lane) (b : RecordBody) : ((s.offer l b).lane m).laneState = (s.lane m).laneState := by
  rw [offer_lane]
@[simp] theorem offer_lane_idle (s : State) (l m : Lane) (b : RecordBody) : ((s.offer l b).lane m).idle = (s.lane m).idle := by
  rw [offer_lane]
@[simp] theorem offer_lane_settings (s : State) (l m : Lane) (b : RecordBody) : ((s.offer l b).lane m).settings = (s.lane m).settings := by
  rw [offer_lane]
@[simp] theorem offer_lane_clamped (s : State) (l m : Lane) (b : RecordBody) : ((s.offer l b).lane m).clamped = (s.lane m).clamped := by
  rw [offer_lane]
@[simp] theorem offer_lane_held (s : State) (l m : Lane) (b : RecordBody) : ((s.offer l b).lane m).held = (s.lane m).held := by
  rw [offer_lane]
@[simp] theorem offer_lane_store (s : State) (l m : Lane) (b : RecordBody) : ((s.offer l b).lane m).store = (s.lane m).store := by
  rw [offer_lane]
@[simp] theorem offer_lane_keylock (s : State) (l m : Lane) (b : RecordBody) : ((s.offer l b).lane m).keylock = (s.lane m).keylock := by
  rw [offer_lane]
@[simp] theorem offer_lane_kb (s : State) (l m : Lane) (b : RecordBody) : ((s.offer l b).lane m).kb = (s.lane m).kb := by
  rw [offer_lane]
@[simp] theorem offer_lane_portA (s : State) (l m : Lane) (b : RecordBody) : ((s.offer l b).lane m).portA = (s.lane m).portA := by
  rw [offer_lane]
@[simp] theorem offer_lane_portB (s : State) (l m : Lane) (b : RecordBody) : ((s.offer l b).lane m).portB = (s.lane m).portB := by
  rw [offer_lane]
@[simp] theorem offer_lane_acceptor (s : State) (l m : Lane) (b : RecordBody) : ((s.offer l b).lane m).acceptor = (s.lane m).acceptor := by
  rw [offer_lane]
@[simp] theorem offer_lane_drawer (s : State) (l m : Lane) (b : RecordBody) : ((s.offer l b).lane m).drawer = (s.lane m).drawer := by
  rw [offer_lane]

@[simp] theorem stage_lane_configured (s : State) (l m : Lane) (b : RecordBody) : ((s.stage l b).lane m).configured = (s.lane m).configured := by
  rw [stage_lane]; split <;> simp_all
@[simp] theorem stage_lane_laneState (s : State) (l m : Lane) (b : RecordBody) : ((s.stage l b).lane m).laneState = (s.lane m).laneState := by
  rw [stage_lane]; split <;> simp_all
@[simp] theorem stage_lane_idle (s : State) (l m : Lane) (b : RecordBody) : ((s.stage l b).lane m).idle = (s.lane m).idle := by
  rw [stage_lane]; split <;> simp_all
@[simp] theorem stage_lane_settings (s : State) (l m : Lane) (b : RecordBody) : ((s.stage l b).lane m).settings = (s.lane m).settings := by
  rw [stage_lane]; split <;> simp_all
@[simp] theorem stage_lane_clamped (s : State) (l m : Lane) (b : RecordBody) : ((s.stage l b).lane m).clamped = (s.lane m).clamped := by
  rw [stage_lane]; split <;> simp_all
@[simp] theorem stage_lane_held (s : State) (l m : Lane) (b : RecordBody) : ((s.stage l b).lane m).held = (s.lane m).held := by
  rw [stage_lane]; split <;> simp_all
@[simp] theorem stage_lane_store (s : State) (l m : Lane) (b : RecordBody) : ((s.stage l b).lane m).store = (s.lane m).store := by
  rw [stage_lane]; split <;> simp_all
@[simp] theorem stage_lane_keylock (s : State) (l m : Lane) (b : RecordBody) : ((s.stage l b).lane m).keylock = (s.lane m).keylock := by
  rw [stage_lane]; split <;> simp_all
@[simp] theorem stage_lane_kb (s : State) (l m : Lane) (b : RecordBody) : ((s.stage l b).lane m).kb = (s.lane m).kb := by
  rw [stage_lane]; split <;> simp_all
@[simp] theorem stage_lane_portA (s : State) (l m : Lane) (b : RecordBody) : ((s.stage l b).lane m).portA = (s.lane m).portA := by
  rw [stage_lane]; split <;> simp_all
@[simp] theorem stage_lane_portB (s : State) (l m : Lane) (b : RecordBody) : ((s.stage l b).lane m).portB = (s.lane m).portB := by
  rw [stage_lane]; split <;> simp_all
@[simp] theorem stage_lane_acceptor (s : State) (l m : Lane) (b : RecordBody) : ((s.stage l b).lane m).acceptor = (s.lane m).acceptor := by
  rw [stage_lane]; split <;> simp_all
@[simp] theorem stage_lane_drawer (s : State) (l m : Lane) (b : RecordBody) : ((s.stage l b).lane m).drawer = (s.lane m).drawer := by
  rw [stage_lane]; split <;> simp_all
@[simp] theorem restartIdle_lane_configured (s : State) (l m : Lane) : ((s.restartIdle l).lane m).configured = (s.lane m).configured := by
  rw [State.restartIdle, lane_modLane]; split <;> [(split <;> rfl); rfl]
@[simp] theorem restartIdle_lane_laneState (s : State) (l m : Lane) : ((s.restartIdle l).lane m).laneState = (s.lane m).laneState := by
  rw [State.restartIdle, lane_modLane]; split <;> [(split <;> rfl); rfl]
@[simp] theorem restartIdle_lane_settings (s : State) (l m : Lane) : ((s.restartIdle l).lane m).settings = (s.lane m).settings := by
  rw [State.restartIdle, lane_modLane]; split <;> [(split <;> rfl); rfl]
@[simp] theorem restartIdle_lane_clamped (s : State) (l m : Lane) : ((s.restartIdle l).lane m).clamped = (s.lane m).clamped := by
  rw [State.restartIdle, lane_modLane]; split <;> [(split <;> rfl); rfl]
@[simp] theorem restartIdle_lane_held (s : State) (l m : Lane) : ((s.restartIdle l).lane m).held = (s.lane m).held := by
  rw [State.restartIdle, lane_modLane]; split <;> [(split <;> rfl); rfl]
@[simp] theorem restartIdle_lane_store (s : State) (l m : Lane) : ((s.restartIdle l).lane m).store = (s.lane m).store := by
  rw [State.restartIdle, lane_modLane]; split <;> [(split <;> rfl); rfl]
@[simp] theorem restartIdle_lane_keylock (s : State) (l m : Lane) : ((s.restartIdle l).lane m).keylock = (s.lane m).keylock := by
  rw [State.restartIdle, lane_modLane]; split <;> [(split <;> rfl); rfl]
@[simp] theorem restartIdle_lane_kb (s : State) (l m : Lane) : ((s.restartIdle l).lane m).kb = (s.lane m).kb := by
  rw [State.restartIdle, lane_modLane]; split <;> [(split <;> rfl); rfl]
@[simp] theorem restartIdle_lane_portA (s : State) (l m : Lane) : ((s.restartIdle l).lane m).portA = (s.lane m).portA := by
  rw [State.restartIdle, lane_modLane]; split <;> [(split <;> rfl); rfl]
@[simp] theorem restartIdle_lane_portB (s : State) (l m : Lane) : ((s.restartIdle l).lane m).portB = (s.lane m).portB := by
  rw [State.restartIdle, lane_modLane]; split <;> [(split <;> rfl); rfl]
@[simp] theorem restartIdle_lane_drawer (s : State) (l m : Lane) : ((s.restartIdle l).lane m).drawer = (s.lane m).drawer := by
  rw [State.restartIdle, lane_modLane]; split <;> [(split <;> rfl); rfl]
@[simp] theorem modAcceptor_lane_configured (s : State) (l m : Lane) (g : Acceptor → Acceptor) :
    ((s.modAcceptor l g).lane m).configured = (s.lane m).configured := by
  rw [State.modAcceptor, lane_modLane]; split <;> rfl
@[simp] theorem modAcceptor_lane_laneState (s : State) (l m : Lane) (g : Acceptor → Acceptor) :
    ((s.modAcceptor l g).lane m).laneState = (s.lane m).laneState := by
  rw [State.modAcceptor, lane_modLane]; split <;> rfl
@[simp] theorem modAcceptor_lane_idle (s : State) (l m : Lane) (g : Acceptor → Acceptor) :
    ((s.modAcceptor l g).lane m).idle = (s.lane m).idle := by
  rw [State.modAcceptor, lane_modLane]; split <;> rfl
@[simp] theorem modAcceptor_lane_settings (s : State) (l m : Lane) (g : Acceptor → Acceptor) :
    ((s.modAcceptor l g).lane m).settings = (s.lane m).settings := by
  rw [State.modAcceptor, lane_modLane]; split <;> rfl
@[simp] theorem modAcceptor_lane_clamped (s : State) (l m : Lane) (g : Acceptor → Acceptor) :
    ((s.modAcceptor l g).lane m).clamped = (s.lane m).clamped := by
  rw [State.modAcceptor, lane_modLane]; split <;> rfl
@[simp] theorem modAcceptor_lane_held (s : State) (l m : Lane) (g : Acceptor → Acceptor) :
    ((s.modAcceptor l g).lane m).held = (s.lane m).held := by
  rw [State.modAcceptor, lane_modLane]; split <;> rfl
@[simp] theorem modAcceptor_lane_store (s : State) (l m : Lane) (g : Acceptor → Acceptor) :
    ((s.modAcceptor l g).lane m).store = (s.lane m).store := by
  rw [State.modAcceptor, lane_modLane]; split <;> rfl
@[simp] theorem modAcceptor_lane_keylock (s : State) (l m : Lane) (g : Acceptor → Acceptor) :
    ((s.modAcceptor l g).lane m).keylock = (s.lane m).keylock := by
  rw [State.modAcceptor, lane_modLane]; split <;> rfl
@[simp] theorem modAcceptor_lane_kb (s : State) (l m : Lane) (g : Acceptor → Acceptor) :
    ((s.modAcceptor l g).lane m).kb = (s.lane m).kb := by
  rw [State.modAcceptor, lane_modLane]; split <;> rfl
@[simp] theorem modAcceptor_lane_portA (s : State) (l m : Lane) (g : Acceptor → Acceptor) :
    ((s.modAcceptor l g).lane m).portA = (s.lane m).portA := by
  rw [State.modAcceptor, lane_modLane]; split <;> rfl
@[simp] theorem modAcceptor_lane_portB (s : State) (l m : Lane) (g : Acceptor → Acceptor) :
    ((s.modAcceptor l g).lane m).portB = (s.lane m).portB := by
  rw [State.modAcceptor, lane_modLane]; split <;> rfl
@[simp] theorem modAcceptor_lane_drawer (s : State) (l m : Lane) (g : Acceptor → Acceptor) :
    ((s.modAcceptor l g).lane m).drawer = (s.lane m).drawer := by
  rw [State.modAcceptor, lane_modLane]; split <;> rfl

end Sys2Proof.Machine
end

