-- ==== Sys2Proof/Laws/KeyboardStep.lean ====
section
/-! SUPPORT. The keyboard scanner's operations are lane events (chapter 2). -/

namespace Sys2Proof.Machine

/-- The keys of a lane unit under a new keyboard whose image is no longer, outside of SCANNING empty. -/
theorem keysUpTo_of {u v : LaneUnit} (hs : v.settings = u.settings) (hm : v.kb.mode = u.kb.mode)
    (hi : v.kb.image.length ≤ u.kb.image.length) (hb : u.kb.blocked = [] → v.kb.blocked = []) (b : Nat) (h : u.keysUpTo b) :
    v.keysUpTo b := by
  obtain ⟨h1, h2⟩ := h
  refine ⟨fun hx => ?_, ?_⟩
  · obtain ⟨a, c⟩ := h1 (hm ▸ hx)
    rw [a] at hi
    exact ⟨List.eq_nil_of_length_eq_zero (by simpa using hi), hb c⟩
  · rw [hs]; omega

/-- A lane event of lane `l` that leaves its scan mode and its settings. -/
def KeyStep (l : Lane) (s t : State) : Prop :=
  LaneStep (only l) s t ∧ (t.lane l).kb.mode = (s.lane l).kb.mode

theorem KeyStep.trans {l : Lane} {s t u : State} (a : KeyStep l s t) (b : KeyStep l t u) : KeyStep l s u :=
  ⟨a.1.trans b.1, b.2.trans a.2⟩

/-- A fold of key events of a SCANNING lane is one. -/
theorem KeyStep.foldl {l : Lane} {α : Type} (f : State → α → State)
    (h : ∀ s a, (s.lane l).kb.mode = .scanning → KeyStep l s (f s a)) :
    ∀ (as : List α) (s : State), (s.lane l).kb.mode = .scanning → KeyStep l s (as.foldl f s)
  | [], s, _ => ⟨LaneStep.refl _ s, rfl⟩
  | a :: as, s, hm =>
    let x := h s a hm
    x.trans (KeyStep.foldl f h as (f s a) (x.2.trans hm))

/-- A key accepted in SCANNING with a slot free (R25, R27). -/
theorem KeyStep.acceptKey {l : Lane} {s : State} (k : Key) (hm : (s.lane l).kb.mode = .scanning)
    (hs : (s.lane l).hasSlot = true) : KeyStep l s (s.acceptKey l k) := by
  have hlt : (s.lane l).kb.image.length < (s.lane l).settings.rollover := by simpa [LaneUnit.hasSlot] using hs
  have base : KeyStep l s (s.modKb l (fun kb =>
      { kb with image := kb.image ++ [k], typematic := (s.lane l).typematicFor k })) := by
    refine ⟨LaneStep.modKb fun b _ => ⟨fun x => absurd hm x, ?_⟩, by simp [State.modKb]⟩
    simp; omega
  simp only [State.acceptKey]
  split
  · refine base.trans ⟨?_, by simp⟩
    exact (((LaneStep.offer _ _).trans LaneStep.modAcceptor).trans (LaneStep.count _ _)).trans
      (LaneStep.restartIdle _)
  · exact base

/-- A key that becomes blocked in SCANNING (R28). -/
theorem KeyStep.blockKey {l : Lane} {s : State} (k : Key) (why : BlockReason) (hm : (s.lane l).kb.mode = .scanning) :
    KeyStep l s (s.blockKey l k why) := by
  have base : KeyStep l s (s.modKb l (fun kb => { kb with blocked := kb.blocked ++ [(k, why)] })) :=
    ⟨LaneStep.modKb fun b h => ⟨fun x => absurd hm x, h.2⟩, by simp [State.modKb]⟩
  simp only [State.blockKey]
  split
  · exact base.trans ⟨LaneStep.offer _ _, by simp⟩
  · exact base

/-- A key goes down in SCANNING (R26). -/
theorem KeyStep.keyGoesDown {l : Lane} {s : State} (k : Key) (hm : (s.lane l).kb.mode = .scanning) :
    KeyStep l s (s.keyGoesDown l k) := by
  simp only [State.keyGoesDown]
  split
  · exact KeyStep.blockKey k _ hm
  · split
    · next h => exact KeyStep.acceptKey k hm h
    · exact KeyStep.blockKey k _ hm

/-- A key goes up (R31, R32). -/
theorem KeyStep.keyGoesUp {l : Lane} {s : State} (k : Key) : KeyStep l s (s.keyGoesUp l k) := by
  simp only [State.keyGoesUp]
  split
  · have base : KeyStep l s (s.modKb l (fun kb =>
        { kb with image := kb.image.filter (· != k), typematic := kb.typematic.filter (·.key != k) })) :=
      ⟨LaneStep.modKb (keysUpTo_of rfl rfl (List.length_filter_le _ _) fun h => h), by simp [State.modKb]⟩
    split
    · exact base.trans ⟨LaneStep.offer _ _, by simp⟩
    · exact base
  · exact ⟨LaneStep.modKb (keysUpTo_of rfl rfl (Nat.le_refl _) fun h => by simp [h]), by simp [State.modKb]⟩

/-- A blocked entry is examined again in SCANNING (R30). -/
theorem KeyStep.reexamine {l : Lane} {s : State} (k : Key) (hm : (s.lane l).kb.mode = .scanning) :
    KeyStep l s (s.reexamine l k) := by
  simp only [State.reexamine]
  split
  · exact ⟨LaneStep.refl _ s, rfl⟩
  · next h =>
    have base : KeyStep l s (s.modKb l (fun kb => { kb with blocked := kb.blocked.filter (·.1 != k) })) :=
      ⟨LaneStep.modKb (keysUpTo_of rfl rfl (Nat.le_refl _) fun h => by simp [h]), by simp [State.modKb]⟩
    refine base.trans (KeyStep.acceptKey k (base.2.trans hm) ?_)
    simp only [Bool.or_eq_true, not_or, Bool.not_eq_true, Bool.not_eq_eq_eq_not] at h
    simpa [State.modKb, LaneUnit.hasSlot] using h.2

/-- A pass of a SCANNING lane is a lane event (R22). -/
theorem KeyStep.runPass {l : Lane} {s : State} (raw : BitVec 128) (hm : (s.lane l).kb.mode = .scanning) :
    KeyStep l s (s.runPass l raw) := by
  simp only [State.runPass]
  have h1 : KeyStep l s (s.modKb l (fun kb => { kb with counts := Vector.ofFn ((s.lane l).countAfter raw) })) :=
    ⟨LaneStep.modKb (keysUpTo_of rfl rfl (Nat.le_refl _) fun h => h), by simp [State.modKb]⟩
  have h2 := h1.trans (KeyStep.foldl (fun s k => s.keyGoesUp l k) (fun s k _ => KeyStep.keyGoesUp k) ((s.lane l).goingUp raw) _
    (h1.2.trans hm))
  have h3 := fun ks => h2.trans (KeyStep.foldl (fun s k => s.reexamine l k) (fun s k h => KeyStep.reexamine k h) ks _
    (h2.2.trans hm))
  have h4 := fun ks => (h3 ks).trans (KeyStep.foldl (fun s k => s.keyGoesDown l k) (fun s k h => KeyStep.keyGoesDown k h)
    ((s.lane l).goingDown raw) _ ((h3 ks).2.trans hm))
  exact (h4 _).trans ⟨LaneStep.modKb (keysUpTo_of rfl rfl (Nat.le_refl _) fun h => h), by simp [State.modKb]⟩

/-- The typematic timer's expiry is a lane event (R33, R34). -/
theorem LaneStep.repeatKey (l : Lane) (s : State) (k : Key) : LaneStep (only l) s (s.repeatKey l k) := by
  have base : LaneStep (only l) s (s.modKb l (fun kb =>
      { kb with typematic := some { key := k, repeating := true, left := msTicks (s.lane l).settings.repeatMs } })) :=
    LaneStep.modKb (keysUpTo_of rfl rfl (Nat.le_refl _) fun h => h)
  simp only [State.repeatKey]
  split
  · exact base
  · exact base.trans (LaneStep.offer _ _)

/-- A scanner that enters a mode tracks no key (R21). -/
theorem entered_empty (mode : ScanMode) (pass : Nat) :
    (Keyboard.entered mode pass).image = [] ∧ (Keyboard.entered mode pass).blocked = [] := ⟨rfl, rfl⟩

theorem followScan_keys (u : LaneUnit) : SameSettings u u.followScan ∧ (∀ b, u.okUpTo b → u.followScan.okUpTo b) := by
  unfold LaneUnit.followScan
  split
  · exact ⟨⟨rfl, rfl, rfl, rfl, rfl, rfl⟩, fun _ h => h⟩
  · exact ⟨⟨rfl, rfl, rfl, rfl, rfl, rfl⟩, fun _ h => ⟨h.1, h.2.1, h.2.2.1, fun _ => ⟨rfl, rfl⟩, Nat.zero_le _⟩⟩

theorem startCapture_keys (u : LaneUnit) : SameSettings u u.startCapture ∧ (∀ b, u.okUpTo b → u.startCapture.okUpTo b) :=
  ⟨⟨rfl, rfl, rfl, rfl, rfl, rfl⟩, fun _ h => ⟨h.1, h.2.1, h.2.2.1, fun _ => ⟨rfl, rfl⟩, Nat.zero_le _⟩⟩

theorem dropCapture_keys (u : LaneUnit) : SameSettings u u.dropCapture ∧ (∀ b, u.okUpTo b → u.dropCapture.okUpTo b) :=
  ⟨⟨rfl, rfl, rfl, rfl, rfl, rfl⟩, fun _ h => h⟩

theorem examined_keys (kb : Keyboard) (d : Nat) (active : Bool) :
    (kb.examined d active).mode = kb.mode ∧ (kb.examined d active).image = kb.image ∧
      (kb.examined d active).blocked = kb.blocked := by
  unfold Keyboard.examined
  split <;> (try split) <;> exact ⟨rfl, rfl, rfl⟩

theorem examine_keys (u : LaneUnit) (active : Bool) : SameSettings u (u.examine active) ∧ (∀ b, u.okUpTo b → (u.examine active).okUpTo b) := by
  obtain ⟨a, b, c⟩ := examined_keys u.kb u.settings.debounce active
  exact ⟨⟨rfl, rfl, rfl, rfl, rfl, rfl⟩, fun _ h => ⟨h.1, h.2.1, h.2.2.1,
    keysUpTo_of (u := u) (v := u.examine active) rfl a (Nat.le_of_eq (congrArg List.length b)) (fun h => c.trans h) _ h.2.2.2⟩⟩

end Sys2Proof.Machine
end

