-- ==== Sys2Proof/Laws/ScannerStep.lean ====
section
/-! SUPPORT. The scanner ports' and the label acceptor's operations are lane events (chapters 3 and 4). -/

namespace Sys2Proof.Machine

/-! ## Ports that stay `ok` -/

theorem clearFrame_ok {q : ScanPort} : (q.clearFrame).ok := ⟨Nat.zero_le _, fun _ => ⟨rfl, rfl, rfl, rfl⟩⟩

/-- A port with an empty frame is `ok` in any frame state. -/
theorem port_ok_of_empty {q : ScanPort} (h : q.text = [] ∧ q.mark = none ∧ q.damaged = false ∧ q.tooLong = false) : q.ok :=
  ⟨by simp [h.1], fun _ => h⟩

theorem toWaiting_ok (q : ScanPort) : q.toWaiting.ok := port_ok_of_empty ⟨rfl, rfl, rfl, rfl⟩

theorem turnOff_ok (q : ScanPort) : q.turnOff.ok := port_ok_of_empty ⟨rfl, rfl, rfl, rfl⟩

theorem turnOn_ok (q : ScanPort) (c : PortSettings) : (q.turnOn c).ok := port_ok_of_empty ⟨rfl, rfl, rfl, rfl⟩

theorem toneStep_ok {q : ScanPort} (h : q.ok) : q.toneStep.ok := by
  unfold ScanPort.toneStep
  split
  · exact h
  · split <;> exact h

/-- A character placed leaves a port that is ASSEMBLING `ok` (R46). -/
theorem place_ok {q : ScanPort} (c : PortSettings) (value : Byte) (err : Bool) (hf : q.frame = .assembling)
    (h : q.text.length ≤ 48) : (q.place c value err).ok := by
  simp only [ScanPort.place]
  split
  · exact ⟨h, fun x => absurd hf x⟩
  · split
    · next h' => exact ⟨by simp only [List.length_append, List.length_cons, List.length_nil] at *; omega, fun x => absurd hf x⟩
    · exact ⟨h, fun x => absurd hf x⟩

/-! ## The ports -/

theorem LaneStep.cutFrame (l : Lane) (s : State) (p : Port) : LaneStep (only l) s (s.cutFrame l p) := by
  simp only [State.cutFrame]
  split
  · have base : LaneStep (only l) s (s.modPort l p (fun q => { q.clearFrame with frame := .discarding })) :=
      LaneStep.modPort fun _ => port_ok_of_empty ⟨rfl, rfl, rfl, rfl⟩
    split
    · exact base.trans ((LaneStep.offer _ _).trans (LaneStep.count _ _))
    · exact base.trans (LaneStep.count _ _)
    · exact base
  · exact LaneStep.refl _ s

theorem LaneStep.followReceiver (l : Lane) (s : State) (p : Port) : LaneStep (only l) s (s.followReceiver l p) := by
  simp only [State.followReceiver]
  split
  · exact LaneStep.refl _ s
  · split
    · exact LaneStep.modPort fun _ => turnOn_ok _ _
    · exact (LaneStep.cutFrame l s p).trans (LaneStep.modPort fun _ => turnOff_ok _)

theorem LaneStep.stopTone (l : Lane) (s : State) (p : Port) : LaneStep (only l) s (s.modPort l p ScanPort.stopTone) :=
  LaneStep.modPort fun h => h

theorem LaneStep.followTone (l : Lane) (s : State) (p : Port) : LaneStep (only l) s (s.followTone l p) := by
  unfold State.followTone
  split
  · exact LaneStep.refl _ s
  · exact LaneStep.refl _ s
  · exact LaneStep.stopTone l s p
  · exact LaneStep.stopTone l s p

theorem LaneStep.reloadPort (l : Lane) (s : State) (p : Port) : LaneStep (only l) s (s.reloadPort l p) := by
  simp only [State.reloadPort]
  refine (LaneStep.cutFrame l s p).trans (LaneStep.trans ?_ (LaneStep.followTone l _ p))
  have base : LaneStep (only l) (s.cutFrame l p) ((s.cutFrame l p).modPort l p (fun q =>
      if ((s.cutFrame l p).lane l).receiverOn p then q.turnOn (((s.cutFrame l p).lane l).portSettings p) else q.turnOff)) := by
    refine LaneStep.modPort fun _ => ?_
    split
    · exact turnOn_ok _ _
    · exact turnOff_ok _
  split
  · exact base
  · exact base.trans (LaneStep.stopTone l _ p)

/-! ## The acceptor -/

theorem LaneStep.refuseLabel (l : Lane) (s : State) (p : Port) (why : RefuseReason) :
    LaneStep (only l) s (s.refuseLabel l p why) := (LaneStep.offer _ _).trans (LaneStep.count _ _)

theorem LaneStep.suppressLabel (l : Lane) (s : State) (p : Port) : LaneStep (only l) s (s.suppressLabel l p) := by
  simp only [State.suppressLabel]
  split
  · exact LaneStep.trans (LaneStep.trans LaneStep.modAcceptor (LaneStep.count _ _)) (LaneStep.offer _ _)
  · exact LaneStep.trans LaneStep.modAcceptor (LaneStep.count _ _)

theorem LaneStep.acceptLabel (l : Lane) (s : State) (f : Frame) (passed : Bool) :
    LaneStep (only l) s (s.acceptLabel l f passed) := by
  simp only [State.acceptLabel]
  refine LaneStep.trans ?_ (LaneStep.restartIdle _)
  split
  · exact (LaneStep.modAcceptor.trans (LaneStep.count _ _)).trans (LaneStep.offer _ _)
  · exact ((LaneStep.modAcceptor.trans (LaneStep.count _ _)).trans (LaneStep.offer _ _)).trans (LaneStep.modPort fun h => h)

theorem LaneStep.judge (l : Lane) (s : State) (f : Frame) : LaneStep (only l) s (s.judge l f) := by
  simp only [State.judge]
  repeat' split
  all_goals first
    | exact LaneStep.refuseLabel l s _ _
    | exact LaneStep.suppressLabel l s _
    | exact LaneStep.acceptLabel l s _ _

theorem LaneStep.holdFrame (l : Lane) (s : State) (p : Port) : LaneStep (only l) s (s.holdFrame l p) := by
  have base : LaneStep (only l) s (s.modPort l p (fun q =>
      { q.clearFrame with frame := .discarding, gap := some (msTicks ((s.lane l).portSettings p).gapMs) })) :=
    LaneStep.modPort fun _ => port_ok_of_empty ⟨rfl, rfl, rfl, rfl⟩
  simp only [State.holdFrame]
  split
  · exact base.trans ((LaneStep.offer _ _).trans (LaneStep.count _ _))
  · exact base

theorem LaneStep.endFrame (l : Lane) (s : State) (p : Port) : LaneStep (only l) s (s.endFrame l p) := by
  have base : LaneStep (only l) s (s.modPort l p ScanPort.toWaiting) := LaneStep.modPort fun _ => toWaiting_ok _
  simp only [State.endFrame]
  split
  · exact base
  · exact base.trans (LaneStep.judge l _ _)

theorem LaneStep.fragment (l : Lane) (s : State) (p : Port) : LaneStep (only l) s (s.fragment l p) :=
  ((LaneStep.offer _ _).trans (LaneStep.count _ _)).trans (LaneStep.modPort fun _ => toWaiting_ok _)

/-! ## Lane state control and the keylock -/

theorem captureOrFollow_keys (u : LaneUnit) (capture : Bool) :
    SameSettings u (if capture then u.startCapture else u.followScan) ∧
      (∀ b, u.okUpTo b → (if capture then u.startCapture else u.followScan).okUpTo b) := by
  cases capture
  · exact followScan_keys u
  · exact startCapture_keys u

theorem LaneStep.changeLane (l : Lane) (s : State) (new : LaneState) (cause : StateCause) (capture : Bool) :
    LaneStep (only l) s (s.changeLane l new cause capture) := by
  simp only [State.changeLane]
  refine LaneStep.trans (LaneStep.trans (LaneStep.trans (LaneStep.trans (LaneStep.trans (LaneStep.trans ?_
    (LaneStep.offer _ _)) (LaneStep.followReceiver l _ .a)) (LaneStep.followTone l _ .a)) (LaneStep.followReceiver l _ .b))
    (LaneStep.followTone l _ .b)) (LaneStep.modLane ?_ ?_)
  · exact LaneStep.modLane ⟨rfl, rfl, rfl, rfl, rfl, rfl⟩ fun _ h => h
  · exact (captureOrFollow_keys _ capture).1
  · exact (captureOrFollow_keys _ capture).2

theorem LaneStep.wake (l : Lane) (s : State) (w : WakeSource) : LaneStep (only l) s (s.wake l w) := by
  simp only [State.wake]
  split
  · exact LaneStep.changeLane l s _ _ _
  · exact LaneStep.refl _ s

theorem takeReading_same (u : LaneUnit) : SameSettings u u.takeReading ∧ (∀ b, u.okUpTo b → u.takeReading.okUpTo b) := by
  unfold LaneUnit.takeReading
  split <;> exact ⟨⟨rfl, rfl, rfl, rfl, rfl, rfl⟩, fun _ h => h⟩

theorem setContacts_same (u : LaneUnit) (c : BitVec 4) : SameSettings u (u.setContacts c) ∧ (∀ b, u.okUpTo b → (u.setContacts c).okUpTo b) := by
  simp only [LaneUnit.setContacts]
  split
  · exact ⟨⟨rfl, rfl, rfl, rfl, rfl, rfl⟩, fun _ h => h⟩
  · split
    · exact takeReading_same { u with keylock.contacts := c }
    · exact ⟨⟨rfl, rfl, rfl, rfl, rfl, rfl⟩, fun _ h => h⟩

theorem followReader_same (u : LaneUnit) : SameSettings u u.followReader ∧ (∀ b, u.okUpTo b → u.followReader.okUpTo b) := by
  unfold LaneUnit.followReader
  split
  · exact ⟨⟨rfl, rfl, rfl, rfl, rfl, rfl⟩, fun _ h => h⟩
  · split
    · exact takeReading_same { u with keylock.running := true }
    · exact ⟨⟨rfl, rfl, rfl, rfl, rfl, rfl⟩, fun _ h => h⟩

theorem LaneStep.adopt (l : Lane) (s : State) (pos : Position) (indeterminate : Bool) :
    LaneStep (only l) s (s.adopt l pos indeterminate) := by
  simp only [State.adopt]
  have base : LaneStep (only l) s (((s.modLane l (fun u =>
      { u with keylock := { u.keylock with position := pos, candidate := none, settle := none }, rewrite := true })).wake l
        .keylock).offer l (.keylock pos (s.lane l).keylock.position indeterminate)) := by
    refine LaneStep.trans (LaneStep.trans ?_ (LaneStep.wake l _ _)) (LaneStep.offer _ _)
    exact LaneStep.modLane ⟨rfl, rfl, rfl, rfl, rfl, rfl⟩ fun _ h => h
  split
  · exact base.trans (LaneStep.offer _ _)
  · exact base

/-! ## Characters -/

theorem port_modPort_same (s : State) (l : Lane) (p : Port) (f : ScanPort → ScanPort) :
    ((s.modPort l p f).lane l).port p = f ((s.lane l).port p) := by
  cases p <;> simp [State.modPort, LaneUnit.modPort, LaneUnit.port]

theorem LaneStep.beginFrame (l : Lane) (s : State) (p : Port) (value : Byte) (err : Bool) :
    LaneStep (only l) s (s.beginFrame l p value err) := by
  simp only [State.beginFrame]
  split
  · exact LaneStep.modPort fun h => h
  · split
    · exact (LaneStep.modPort fun _ => place_ok _ _ _ rfl (Nat.zero_le _)).trans (LaneStep.wake l _ _)
    · exact LaneStep.holdFrame l s p

theorem LaneStep.takeChar (l : Lane) (s : State) (p : Port) (value : Byte) (err : Bool) :
    LaneStep (only l) s (s.takeChar l p value err) := by
  simp only [State.takeChar]
  split
  · exact LaneStep.beginFrame l s p value err
  · next hf =>
    split
    · exact LaneStep.endFrame l s p
    · exact LaneStep.modPort fun h => place_ok _ _ _ hf h.1
  · split
    · exact LaneStep.modPort fun _ => toWaiting_ok _
    · exact LaneStep.modPort fun h => h

theorem LaneStep.receive (l : Lane) (s : State) (p : Port) (char : RxChar) : LaneStep (only l) s (s.receive l p char) := by
  simp only [State.receive]
  refine LaneStep.trans ?_ (LaneStep.takeChar l _ p _ _)
  split
  · exact LaneStep.modPort fun h => h
  · exact LaneStep.refl _ s

end Sys2Proof.Machine
end

