-- ==== Sys2Proof/Laws/DrawerStep.lean ====
section
/-! SUPPORT. The drawer controller's operations keep the drawer `ok`, and are lane events (chapter 5). -/

namespace Sys2Proof.Machine

/-! ## Drawers that stay `ok` -/

/-- A drawer that is not KICKING with its output off is `ok` when its history and failure count are in bounds. -/
theorem drawer_ok_of {d : Drawer} (hc : d.cond ≠ .kicking) (hk : d.kickOut = false) (hh : d.history.length ≤ 8)
    (hf : d.failCount ≤ 2) : d.ok := ⟨fun _ => hc, fun h => by simp [hk] at h, hh, hf⟩

/-- The output of an `ok` drawer that is not KICKING is off. -/
theorem Drawer.ok.off {d : Drawer} (h : d.ok) (hc : d.cond ≠ .kicking) : d.kickOut = false := by
  cases hk : d.kickOut
  · rfl
  · exact absurd (h.2.1 hk).1 hc

theorem updateHistory_length (h : List Word32) (w : Nat) (now : Word32) : (updateHistory h w now).length ≤ 8 := by
  simp only [updateHistory]
  generalize h.filter _ = kept
  split <;> simp only [List.length_append, List.length_drop, List.length_cons, List.length_nil] <;> omega

theorem forceOpen_ok {d : Drawer} (c : DrawerSettings) (now : Word32) (h : d.ok) (hc : d.cond ≠ .kicking) :
    (d.forceOpen c now).ok := by
  simp only [Drawer.forceOpen]
  split
  · exact drawer_ok_of (by simp [Drawer.openAt]) (by simpa [Drawer.openAt] using h.off hc) (by simp) h.2.2.2
  · exact drawer_ok_of (by simp [Drawer.openAt]) (by simpa [Drawer.openAt] using h.off hc) (updateHistory_length _ _ _) h.2.2.2

theorem openAt_ok {d : Drawer} (c : DrawerSettings) (now : Word32) (cond : Condition) (hn : cond ≠ .kicking) (h : d.ok)
    (hc : d.cond ≠ .kicking) : (d.openAt c now cond).ok := drawer_ok_of hn (h.off hc) h.2.2.1 h.2.2.2

theorem compareRaw_ok {d : Drawer} (c : DrawerSettings) (h : d.ok) : (d.compareRaw c).ok := by
  unfold Drawer.compareRaw
  split <;> exact h

theorem rawChange_ok {d : Drawer} (c : DrawerSettings) (isOpen : Bool) (h : d.ok) : (d.rawChange c isOpen).ok := by
  simp only [Drawer.rawChange]
  split
  · exact h
  · split
    · exact compareRaw_ok (d := { d with rawOpen := isOpen }) c h
    · exact h

theorem endMeasure_ok {d : Drawer} (c : DrawerSettings) (h : d.ok) : (d.endMeasure c).ok :=
  compareRaw_ok (d := { d with measuring := none, presence := startUnlessZero (secTicks c.presenceS) }) c h

theorem leaveAbsent_ok {d : Drawer} (c : DrawerSettings) (now : Word32) (h : d.ok) (hc : d.cond ≠ .kicking) :
    (d.leaveAbsent c now).ok := by
  unfold Drawer.leaveAbsent
  split
  · exact drawer_ok_of (by simp [Drawer.openAt]) (by simpa [Drawer.openAt] using h.off hc) h.2.2.1 (by simp)
  · exact drawer_ok_of (by simp) (by simpa using h.off hc) h.2.2.1 (by simp)

theorem stop_ok {d : Drawer} (h : d.ok) : d.stop.ok := by
  refine drawer_ok_of ?_ rfl h.2.2.1 (by simp [Drawer.stop])
  unfold Drawer.stop
  simp only
  split
  · simp
  · next hx => exact hx

theorem newInterval_ok {d : Drawer} (c : DrawerSettings) (h : d.ok) : (d.newInterval c).ok := by
  unfold Drawer.newInterval
  split
  · split
    · exact compareRaw_ok (d := { d with measuring := none, presence := none }) c h
    · exact h
  · split <;> exact h

/-! ## The controller -/

/-- A drawer event is a lane event when the drawer it leaves is `ok` (R79). -/
theorem LaneStep.drawerEvent {l : Lane} {s : State} {f : Drawer → Drawer} {cause : DrawerCause} {value : Word32}
    (hk : (s.lane l).drawer.ok → (f (s.lane l).drawer).ok) : LaneStep (only l) s (s.drawerEvent l f cause value) := by
  simp only [State.drawerEvent]
  refine LaneStep.trans ?_ (LaneStep.offer _ _)
  have base : LaneStep (only l) s ((s.modDrawer l f).laneRewrite l) :=
    (LaneStep.modDrawer hk).trans (LaneStep.laneRewrite _)
  split
  · exact base
  · exact base.trans (LaneStep.wake l _ _)

theorem LaneStep.forcedOpening (l : Lane) {s : State} (hc : (s.lane l).drawer.cond ≠ .kicking) :
    LaneStep (only l) s (s.forcedOpening l) := by
  simp only [State.forcedOpening]
  have base : ∀ v, LaneStep (only l) s ((s.drawerEvent l (fun d => d.forceOpen (s.lane l).settings.drawer s.run.clock) .forced
      v).count l .forced) := fun v =>
    (LaneStep.drawerEvent fun h => forceOpen_ok _ _ h hc).trans (LaneStep.count _ _)
  split
  · exact (base _).trans (LaneStep.offer _ _)
  · exact base _

theorem endKick_openAt_ok {d : Drawer} (c : DrawerSettings) (now : Word32) (h : d.ok) : (d.endKick.openAt c now .isOpen).ok :=
  drawer_ok_of (by simp [Drawer.openAt]) rfl h.2.2.1 h.2.2.2

theorem LaneStep.sensorOpen (l : Lane) (s : State) : LaneStep (only l) s (s.sensorOpen l) := by
  simp only [State.sensorOpen]
  split
  · exact LaneStep.drawerEvent fun h => endKick_openAt_ok _ _ h
  · next hc => exact LaneStep.drawerEvent fun h => openAt_ok _ _ _ (by simp) h (by simp [hc])
  · next hc =>
    split
    · exact LaneStep.drawerEvent fun h => openAt_ok _ _ _ (by simp) h (by simp [hc])
    · exact LaneStep.forcedOpening l (by simp [hc])
  all_goals exact LaneStep.refl _ s

theorem close_ok {d : Drawer} (h : d.ok) (hc : d.cond ≠ .kicking) : d.close.ok :=
  drawer_ok_of (by simp [Drawer.close]) (by simpa [Drawer.close, Drawer.stopAjar] using h.off hc) h.2.2.1 h.2.2.2

theorem LaneStep.sensorClosed (l : Lane) (s : State) : LaneStep (only l) s (s.sensorClosed l) := by
  simp only [State.sensorClosed]
  split
  · next hc => exact LaneStep.drawerEvent fun h => close_ok h (by simp [hc])
  · next hc => exact LaneStep.drawerEvent fun h => close_ok h (by simp [hc])
  · next hc => exact LaneStep.drawerEvent fun h => close_ok h (by simp [hc])
  all_goals exact LaneStep.refl _ s

theorem toAbsent_ok {d : Drawer} (h : d.ok) : d.toAbsent.ok := drawer_ok_of (by simp [Drawer.toAbsent]) rfl h.2.2.1 h.2.2.2

theorem LaneStep.testResult (l : Lane) (s : State) (followed : Bool) : LaneStep (only l) s (s.testResult l followed) := by
  simp only [State.testResult]
  split
  · have base : LaneStep (only l) s (s.modDrawer l Drawer.failTest) :=
      LaneStep.modDrawer fun h => ⟨h.1, h.2.1, h.2.2.1, Nat.min_le_left _ _⟩
    split
    · exact base.trans (LaneStep.drawerEvent toAbsent_ok)
    · exact base
  · have base : LaneStep (only l) s (s.modDrawer l (fun d => { d with failCount := 0 })) :=
      LaneStep.modDrawer fun h => ⟨h.1, h.2.1, h.2.2.1, Nat.zero_le _⟩
    split
    · next hc =>
      exact base.trans (LaneStep.drawerEvent fun h => leaveAbsent_ok _ _ h (by simp [State.modDrawer, hc]))
    · exact base

theorem start_ok {d : Drawer} (c : DrawerSettings) (now : Word32) (h : d.ok) : (d.start c now).ok := by
  simp only [Drawer.start]
  split
  · exact drawer_ok_of (by simp [Drawer.openAt]) rfl h.2.2.1 (by simp [Drawer.openAt])
  · exact drawer_ok_of (by simp) rfl h.2.2.1 (by simp)

/-- The drawer controller takes settings (R77, R89, R94). -/
theorem LaneStep.reloadDrawer (l : Lane) (s : State) : LaneStep (only l) s (s.reloadDrawer l) := by
  simp only [State.reloadDrawer]
  split
  · split
    · have base : LaneStep (only l) s (s.modDrawer l (fun d => d.newInterval (s.lane l).settings.drawer)) :=
        LaneStep.modDrawer fun h => newInterval_ok _ h
      split
      · next hc =>
        refine base.trans (LaneStep.drawerEvent fun h => leaveAbsent_ok _ _ h ?_)
        have : ∀ d : Drawer, (d.newInterval (s.lane l).settings.drawer).cond = d.cond := by
          intro d
          unfold Drawer.newInterval Drawer.compareRaw
          repeat' split
          all_goals rfl
        simp [State.modDrawer, this, hc.2]
      · exact base
    · exact LaneStep.drawerEvent fun h => start_ok _ _ h
  · split
    · exact LaneStep.drawerEvent stop_ok
    · exact LaneStep.refl _ s

theorem LaneStep.settleSensor (l : Lane) (s : State) (isOpen : Bool) :
    LaneStep (only l) s (s.modDrawer l (fun d => { d with settledOpen := isOpen, settle := none })) :=
  LaneStep.modDrawer fun h => h

end Sys2Proof.Machine
end

