-- ==== Sys2Proof/Laws/Settle.lean ====
section
/-! SUPPORT. What follows an event in the same step: the record pump, the end of the drain, the settings unit's next request and
the grant; and the lanes taken one after the other. -/

namespace Sys2Proof.Machine

/-! ## Lanes one after the other -/

theorem mem_allLanes (m : Lane) : m ∈ allLanes := by
  revert m; decide

theorem allLanes_nodup : allLanes.Nodup := by decide

/-- Each lane changed once, by its own function. -/
theorem foldl_modLane (f : Lane → LaneUnit → LaneUnit) (m : Lane) :
    ∀ (ls : List Lane) (s : State), ls.Nodup →
      (ls.foldl (fun s l => s.modLane l (f l)) s).lane m = if m ∈ ls then f m (s.lane m) else s.lane m
  | [], s, _ => by simp
  | l :: ls, s, h => by
    rw [List.foldl_cons, foldl_modLane f m ls _ (List.nodup_cons.1 h).2, lane_modLane]
    have hl := (List.nodup_cons.1 h).1
    by_cases e : m = l
    · subst e
      simp [hl]
    · simp [e]

theorem forLanes_modLane (s : State) (f : Lane → LaneUnit → LaneUnit) (m : Lane) :
    (s.forLanes fun l s => s.modLane l (f l)).lane m = f m (s.lane m) := by
  rw [State.forLanes, foldl_modLane f m allLanes s allLanes_nodup, if_pos (mem_allLanes m)]

/-- What every step of a fold leaves, the fold leaves. -/
theorem foldl_keep {α β : Type} (g : State → β) (f : State → α → State) (h : ∀ s a, g (f s a) = g s) :
    ∀ (as : List α) (s : State), g (as.foldl f s) = g s
  | [], _ => rfl
  | a :: as, s => (foldl_keep g f h as (f s a)).trans (h s a)

theorem forLanes_keep {β : Type} (g : State → β) (f : Lane → State → State) (h : ∀ l s, g (f l s) = g s) (s : State) :
    g (s.forLanes f) = g s := foldl_keep g _ (fun s l => h l s) _ s

/-! ## The frame of the end of an event -/

/-- A part of the settling that leaves the drain alone: it moves the engine, the open page, and the rewrite-pending flags. -/
structure QuietFrame (s t : State) : Prop where
  pending : t.pending = s.pending
  run : t.run = s.run
  lanes : ∀ m, t.lane m = { s.lane m with rewrite := (t.lane m).rewrite }
  staging : t.staging = s.staging
  journal : t.journal.fromAnchor = s.journal.fromAnchor ∧ t.journal.lastClosed = s.journal.lastClosed ∧
    t.journal.pageSeq = s.journal.pageSeq ∧ t.journal.journalSeq = s.journal.journalSeq ∧
    t.journal.unannounced = s.journal.unannounced ∧ t.journal.stale = s.journal.stale ∧ t.journal.flush = s.journal.flush
  stays : s.journal.state ≠ .filling → t.journal = s.journal
  filling : t.journal.state = s.journal.state
  page : ∀ p, s.journal.page = some p →
    ∃ q, t.journal.page = some q ∧ q = { p with closing := q.closing, closeTime := q.closeTime, lingerDue := q.lingerDue }
  walker : t.walker = s.walker
  unit : t.unit = { s.unit with devRewrite := t.unit.devRewrite, load := t.unit.load }
  hostMem : t.hostMem = s.hostMem
  causeReadData : t.causeReadData = s.causeReadData
  freeUsed : t.freeUsed = s.freeUsed

theorem QuietFrame.refl (s : State) : QuietFrame s s where
  pending := rfl
  run := rfl
  lanes _ := rfl
  staging := rfl
  journal := ⟨rfl, rfl, rfl, rfl, rfl, rfl, rfl⟩
  stays _ := rfl
  filling := rfl
  page p h := ⟨p, h, rfl⟩
  walker := rfl
  unit := rfl
  hostMem := rfl
  causeReadData := rfl
  freeUsed := rfl

theorem QuietFrame.trans {s t u : State} (a : QuietFrame s t) (b : QuietFrame t u) : QuietFrame s u where
  pending := b.pending.trans a.pending
  run := b.run.trans a.run
  lanes m := by rw [b.lanes m, a.lanes m]
  staging := b.staging.trans a.staging
  journal := by
    obtain ⟨h1, h2, h3, h4, h5, h6, h7⟩ := a.journal
    obtain ⟨k1, k2, k3, k4, k5, k6, k7⟩ := b.journal
    exact ⟨k1.trans h1, k2.trans h2, k3.trans h3, k4.trans h4, k5.trans h5, k6.trans h6, k7.trans h7⟩
  stays h := (b.stays (by rw [a.filling]; exact h)).trans (a.stays h)
  filling := b.filling.trans a.filling
  page p h := by
    obtain ⟨q, hq, e⟩ := a.page p h
    obtain ⟨r, hr, e'⟩ := b.page q hq
    exact ⟨r, hr, by rw [e', e]⟩
  walker := b.walker.trans a.walker
  unit := by rw [b.unit, a.unit]
  hostMem := b.hostMem.trans a.hostMem
  causeReadData := b.causeReadData.trans a.causeReadData
  freeUsed := b.freeUsed.trans a.freeUsed

theorem QuietFrame.drained {s t : State} (a : QuietFrame s t) : t.drained = s.drained := by
  have hl : t.anyLoss = s.anyLoss := by
    simp only [State.anyLoss]
    congr 1
    funext m
    rw [a.lanes m]
    rfl
  simp [State.drained, a.run, a.staging, hl]

/-- A step that touches nothing but the engine is quiet. -/
theorem QuietFrame.request (s : State) (w : Requester) (r : Request) : QuietFrame s (s.request w r) where
  pending := by simp
  run := by simp
  lanes m := by rw [lane_congr (request_lanes s w r)]
  staging := by simp
  journal := by simp
  stays := by simp
  filling := by simp
  page p h := ⟨p, by simpa using h, rfl⟩
  walker := by simp
  unit := by simp
  hostMem := by simp
  causeReadData := by simp
  freeUsed := by simp

theorem QuietFrame.grant (s : State) : QuietFrame s s.grant where
  pending := by simp
  run := by simp
  lanes m := by rw [lane_congr (grant_lanes s)]
  staging := by simp
  journal := by simp
  stays := by simp
  filling := by simp
  page p h := ⟨p, by simpa using h, rfl⟩
  walker := by simp
  unit := by simp
  hostMem := by simp
  causeReadData := by simp
  freeUsed := by simp

/-- A close begun on the page that is open (R131). -/
theorem QuietFrame.beginClose {s : State} {page : OpenPage} (why : CloseReason) (hf : s.journal.state = .filling)
    (hp : s.journal.page = some page) : QuietFrame s (s.beginClose page why) := by
  simp only [State.beginClose]
  refine QuietFrame.trans ?_ (QuietFrame.request _ _ _)
  refine ⟨rfl, rfl, fun _ => rfl, rfl, ⟨rfl, rfl, rfl, rfl, rfl, rfl, rfl⟩, fun h => absurd hf h, rfl, fun p h => ?_, rfl, rfl, rfl,
    rfl, rfl⟩
  obtain rfl : page = p := by simpa [hp] using h
  exact ⟨_, rfl, rfl⟩

theorem QuietFrame.pumpRecord (s : State) : QuietFrame s s.pumpRecord := by
  unfold State.pumpRecord
  split
  · next hf hp _ =>
    split
    · exact QuietFrame.refl s
    · split
      · exact QuietFrame.request _ _ _
      · exact QuietFrame.beginClose _ hf hp
  · exact QuietFrame.refl s

theorem QuietFrame.rewriteTarget (s : State) (t : StatusTarget) : QuietFrame s (s.rewriteTarget t) := by
  unfold State.rewriteTarget
  split
  · refine QuietFrame.trans ?_ (QuietFrame.request _ _ _)
    exact ⟨rfl, rfl, fun _ => rfl, rfl, ⟨rfl, rfl, rfl, rfl, rfl, rfl, rfl⟩, fun _ => rfl, rfl, fun p h => ⟨p, h, rfl⟩, rfl, rfl,
      rfl, rfl, rfl⟩
  · refine QuietFrame.trans ?_ (QuietFrame.request _ _ _)
    refine ⟨rfl, rfl, fun m => ?_, rfl, ⟨rfl, rfl, rfl, rfl, rfl, rfl, rfl⟩, fun _ => rfl, rfl, fun p h => ⟨p, h, rfl⟩, rfl,
      rfl, rfl, rfl, rfl⟩
    rw [lane_modLane]
    split <;> rfl

theorem QuietFrame.writeLaneStatus (s : State) (l : Lane) (why : Purpose) : QuietFrame s (s.writeLaneStatus l why) := by
  refine QuietFrame.trans ?_ (QuietFrame.request _ _ _)
  refine ⟨rfl, rfl, fun m => ?_, rfl, ⟨rfl, rfl, rfl, rfl, rfl, rfl, rfl⟩, fun _ => rfl, rfl, fun p h => ⟨p, h, rfl⟩, rfl,
    rfl, rfl, rfl, rfl⟩
  rw [lane_modLane]
  split <;> rfl

theorem QuietFrame.pumpLoad (s : State) : QuietFrame s s.pumpLoad := by
  unfold State.pumpLoad
  split
  · exact QuietFrame.refl s
  · exact QuietFrame.request _ _ _
  · exact QuietFrame.request _ _ _
  · unfold State.pumpStatus
    split
    · next t _ =>
      refine QuietFrame.trans (t := s.rewriteTarget t) (QuietFrame.rewriteTarget s t) ?_
      exact ⟨rfl, rfl, fun _ => rfl, rfl, ⟨rfl, rfl, rfl, rfl, rfl, rfl, rfl⟩, fun _ => rfl, rfl, fun p h => ⟨p, h, rfl⟩, rfl, rfl,
      rfl, rfl, rfl⟩
    · exact QuietFrame.refl s

theorem QuietFrame.pumpRun (s : State) : QuietFrame s s.pumpRun := by
  unfold State.pumpRun
  split
  · exact QuietFrame.request _ _ _
  · exact QuietFrame.writeLaneStatus _ _ _
  · unfold State.pumpRewrite
    split
    · exact QuietFrame.rewriteTarget s _
    · exact QuietFrame.refl s

theorem QuietFrame.pumpSettings (s : State) : QuietFrame s s.pumpSettings := by
  unfold State.pumpSettings
  split
  · exact QuietFrame.refl s
  · split
    · exact QuietFrame.pumpLoad s
    all_goals first
      | exact QuietFrame.pumpRun s
      | exact QuietFrame.refl s

theorem drained_stopping {s : State} (h : s.drained = true) : s.run.device = .stopping := by
  simp only [State.drained, Bool.and_eq_true, beq_iff_eq] at h
  exact h.1.1.1

theorem not_drained {s : State} (h : s.run.device ≠ .stopping) : s.drained = false := by
  cases e : s.drained
  · rfl
  · exact absurd (drained_stopping e) h

theorem SettleFrame.refl (s : State) : SettleFrame s s where
  pending := rfl
  run := Or.inl rfl
  lanes _ := rfl
  captures _ _ := rfl
  staging := rfl
  journal := ⟨rfl, rfl, rfl, rfl, rfl, rfl, rfl⟩
  stays _ _ := rfl
  filling _ h := h
  page _ p h := ⟨p, h, rfl⟩
  walker := rfl
  unit := rfl
  hostMem := rfl
  causeReadData := rfl
  freeUsed := rfl

/-- The journal writer HALTED at the end of the drain, and the device STOPPED (R133, R173), from a state in which `u` stands with
its open page, if any, about to be released. -/
theorem haltJournal_frame {u s : State} (hu : u.drained = true)
    (hs : s = { u with journal.page := s.journal.page })
    (hj : u.journal.state = .filling ∨ u.journal.state = .starved ∨ u.journal.state = .broken) : SettleFrame u s.haltJournal := by
  obtain ⟨t, ht, e⟩ : ∃ t : State, t.forLanes (fun l s => s.modLane l LaneUnit.dropCapture) = s.haltJournal ∧
      t = { u with journal := t.journal, run.journalDone := true, run.device := .stopped, unit.devRewrite := true } := by
    refine ⟨_, rfl, ?_⟩
    unfold State.endEpisode
    rw [hs]
    split <;> rfl
  have hjj : s.haltJournal.journal = { s.haltJournal.journal with
      fromAnchor := u.journal.fromAnchor, lastClosed := u.journal.lastClosed, pageSeq := u.journal.pageSeq,
      journalSeq := u.journal.journalSeq, unannounced := u.journal.unannounced, stale := u.journal.stale,
      flush := u.journal.flush } := by
    have h1 : s.haltJournal.journal = { s.endEpisode.journal with state := .halted, linger := none, reread := false, rehead := false } := by
      rw [State.haltJournal]
      exact forLanes_keep State.journal _ (fun _ _ => rfl) _
    rw [h1]
    unfold State.endEpisode
    rw [hs]
    split <;> rfl
  have hk : ∀ {β : Type} (g : State → β), (∀ s l f, g (State.modLane s l f) = g s) → g s.haltJournal = g t :=
    fun g hg => by rw [← ht]; exact forLanes_keep g _ (fun l s => hg s l _) t
  have hrun : s.haltJournal.run = { u.run with journalDone := true, device := .stopped } := by
    rw [hk State.run fun _ _ _ => rfl, e]
  refine ⟨?_, Or.inr ⟨hu, ?_⟩, ?_, ?_, ?_, ?_, ?_, ?_, ?_, ?_, ?_, ?_, ?_, ?_⟩
  · rw [hk State.pending fun _ _ _ => rfl, e]
  · exact hrun
  · intro m
    rw [← ht, forLanes_modLane t (fun _ => LaneUnit.dropCapture), e]
    rfl
  · intro h
    rw [hrun] at h
    exact absurd (h.trans (drained_stopping hu)) DeviceState.noConfusion
  · rw [hk State.staging fun _ _ _ => rfl, e]
  · rw [hjj]
    exact ⟨rfl, rfl, rfl, rfl, rfl, rfl, rfl⟩
  · intro h1 h2
    have h3 := h2 hu
    rcases hj with h | h | h
    · exact absurd h h1
    · exact absurd h h3.1
    · exact absurd h h3.2
  · intro h; rw [hu] at h; cases h
  · intro h; rw [hu] at h; cases h
  · rw [hk State.walker fun _ _ _ => rfl, e]
  · rw [hk State.unit fun _ _ _ => rfl, e]
  · rw [hk State.hostMem fun _ _ _ => rfl, e]
  · rw [hk State.causeReadData fun _ _ _ => rfl, e]
  · rw [hk State.freeUsed fun _ _ _ => rfl, e]

theorem QuietFrame.settleFrame {s t : State} (a : QuietFrame s t) : SettleFrame s t where
  pending := a.pending
  run := Or.inl a.run
  lanes m := by rw [a.lanes m]
  captures _ m := by rw [a.lanes m]
  staging := a.staging
  journal := a.journal
  stays h _ := a.stays h
  filling _ h := a.filling.trans h
  page _ := a.page
  walker := a.walker
  unit := a.unit
  hostMem := a.hostMem
  causeReadData := a.causeReadData
  freeUsed := a.freeUsed

theorem QuietFrame.before {s t u : State} (a : QuietFrame s t) (b : SettleFrame t u) : SettleFrame s u where
  pending := b.pending.trans a.pending
  run := by simpa [a.run, a.drained] using b.run
  lanes m := by rw [b.lanes m, a.lanes m]
  captures h m := by rw [b.captures (by rw [h, a.run]) m, a.lanes m]
  staging := b.staging.trans a.staging
  journal := by
    obtain ⟨h1, h2, h3, h4, h5, h6, h7⟩ := a.journal
    obtain ⟨k1, k2, k3, k4, k5, k6, k7⟩ := b.journal
    exact ⟨k1.trans h1, k2.trans h2, k3.trans h3, k4.trans h4, k5.trans h5, k6.trans h6, k7.trans h7⟩
  stays h k := by
    rw [b.stays (by rw [a.filling]; exact h) (by rw [a.drained, a.filling]; exact k), a.stays h]
  filling h k := b.filling (by rw [a.drained]; exact h) (by rw [a.filling]; exact k)
  page h p hp := by
    obtain ⟨q, hq, e⟩ := a.page p hp
    obtain ⟨r, hr, e'⟩ := b.page (by rw [a.drained]; exact h) q hq
    exact ⟨r, hr, by rw [e', e]⟩
  walker := b.walker.trans a.walker
  unit := by rw [b.unit, a.unit]
  hostMem := b.hostMem.trans a.hostMem
  causeReadData := b.causeReadData.trans a.causeReadData
  freeUsed := b.freeUsed.trans a.freeUsed

theorem QuietFrame.after {s t u : State} (a : SettleFrame s t) (b : QuietFrame t u) : SettleFrame s u where
  pending := b.pending.trans a.pending
  run := by rw [b.run]; exact a.run
  lanes m := by rw [b.lanes m, a.lanes m]
  captures h m := by rw [b.lanes m]; exact a.captures (by rw [← h, b.run]) m
  staging := b.staging.trans a.staging
  journal := by
    obtain ⟨h1, h2, h3, h4, h5, h6, h7⟩ := a.journal
    obtain ⟨k1, k2, k3, k4, k5, k6, k7⟩ := b.journal
    exact ⟨k1.trans h1, k2.trans h2, k3.trans h3, k4.trans h4, k5.trans h5, k6.trans h6, k7.trans h7⟩
  stays h k := by
    have e := a.stays h k
    rw [b.stays (by rw [e]; exact h), e]
  filling h k := b.filling.trans (a.filling h k)
  page h p hp := by
    obtain ⟨q, hq, e⟩ := a.page h p hp
    obtain ⟨r, hr, e'⟩ := b.page q hq
    exact ⟨r, hr, by rw [e', e]⟩
  walker := b.walker.trans a.walker
  unit := by rw [b.unit, a.unit]
  hostMem := b.hostMem.trans a.hostMem
  causeReadData := b.causeReadData.trans a.causeReadData
  freeUsed := b.freeUsed.trans a.freeUsed

theorem pumpDrain_frame (s : State) : SettleFrame s s.pumpDrain := by
  unfold State.pumpDrain
  split
  · next hd =>
    split
    · next hf hp =>
      split
      · exact SettleFrame.refl s
      · split
        · show SettleFrame s (State.haltJournal { s with journal.page := none })
          exact haltJournal_frame hd rfl (Or.inl hf)
        · exact (QuietFrame.beginClose _ hf hp).settleFrame
    · next h => exact haltJournal_frame hd rfl (Or.inr (Or.inl h))
    · next h => exact haltJournal_frame hd rfl (Or.inr (Or.inr h))
    · exact SettleFrame.refl s
  · exact SettleFrame.refl s

/-- What the end of an event leaves as it is, said once. -/
theorem settle_frame (s : State) : SettleFrame s s.settle := by
  unfold State.settle
  exact QuietFrame.after (QuietFrame.after ((QuietFrame.pumpRecord s).before (pumpDrain_frame _)) (QuietFrame.pumpSettings _))
    (QuietFrame.grant _)

/-- The test of `drained` is the end of the drain as R133 states it. -/
theorem drained_iff (s : State) : s.drained = true ↔ s.drainEnds := by
  have hl : s.anyLoss = false ↔ ∀ (l : Lane) (i : Fin 4), (s.lane l).losses[i] = 0 := by
    simp only [State.anyLoss, LaneUnit.hasLoss, List.any_eq_false, mem_allLanes, true_implies, Bool.or_eq_true, decide_eq_true_eq]
    refine forall_congr' fun l => ⟨fun h i => ?_, fun h => ?_⟩
    · match i with
      | 0 => show (s.lane l).losses[0] = 0; omega
      | 1 => show (s.lane l).losses[1] = 0; omega
      | 2 => show (s.lane l).losses[2] = 0; omega
      | 3 => show (s.lane l).losses[3] = 0; omega
    · have h0 : (s.lane l).losses[0] = 0 := h 0
      have h1 : (s.lane l).losses[1] = 0 := h 1
      have h2 : (s.lane l).losses[2] = 0 := h 2
      have h3 : (s.lane l).losses[3] = 0 := h 3
      omega
  simp only [State.drained, State.drainEnds, Bool.and_eq_true, beq_iff_eq, List.isEmpty_iff, Bool.not_eq_true', hl, and_assoc]

/-- All that the end of the drain does to the journal writer, run control and a lane (R10, R133, R173). -/
theorem haltJournal_spec (s : State) :
    s.haltJournal.journal = { s.journal with
      state := .halted, linger := none, recheck := none, episode := false, reread := false, rehead := false } ∧
    s.haltJournal.run = { s.run with device := .stopped, journalDone := true } ∧ s.haltJournal.unit = { s.unit with devRewrite := true } ∧
    (∀ m, s.haltJournal.lane m = (s.lane m).dropCapture) ∧ s.haltJournal.staging = s.staging ∧ s.haltJournal.walker = s.walker ∧
    s.haltJournal.dma = s.dma ∧ s.haltJournal.hostMem = s.hostMem := by
  have keep {β : Type} (g : State → β) (h : ∀ l t, g (t.modLane l LaneUnit.dropCapture) = g t) (t : State) :
      g (t.forLanes fun l t => t.modLane l LaneUnit.dropCapture) = g t := forLanes_keep g _ h t
  unfold State.haltJournal
  refine ⟨?_, ?_, ?_, fun m => ?_, ?_, ?_, ?_, ?_⟩
  case refine_4 =>
    rw [forLanes_modLane _ (fun _ => LaneUnit.dropCapture)]
    unfold State.endEpisode; split <;> rfl
  all_goals
    first
      | refine (keep State.journal (fun _ _ => rfl) _).trans ?_
      | refine (keep State.run (fun _ _ => rfl) _).trans ?_
      | refine (keep State.unit (fun _ _ => rfl) _).trans ?_
      | refine (keep State.staging (fun _ _ => rfl) _).trans ?_
      | refine (keep State.walker (fun _ _ => rfl) _).trans ?_
      | refine (keep State.dma (fun _ _ => rfl) _).trans ?_
      | refine (keep State.hostMem (fun _ _ => rfl) _).trans ?_
    unfold State.endEpisode
    split <;> simp_all

end Sys2Proof.Machine
end

