-- ==== Sys2Proof/Laws/Engine.lean ====
section
/-! SUPPORT. The DMA engine at the end of an event: a request made stays asked for, a waiting request finds the engine granted, and
FAULTED grants nothing. -/

namespace Sys2Proof.Machine

/-! ## Asking -/

theorem asks_request (s : State) (w : Requester) (r : Request) : (s.request w r).asks w r := by
  left
  cases w <;> rfl

theorem request_waitingOf_ne (s : State) {v w : Requester} (r : Request) (h : v ≠ w) :
    (s.request w r).dma.waitingOf v = s.dma.waitingOf v := by
  cases v <;> cases w <;> first | rfl | exact absurd rfl h

theorem request_granted (s : State) (w : Requester) (r : Request) : (s.request w r).dma.granted = s.dma.granted := by
  cases w <;> rfl

/-- A request of one requester leaves what another asks for. -/
theorem asks_request_ne {s : State} {v w : Requester} {q : Request} (r : Request) (h : v ≠ w) (a : s.asks v q) :
    (s.request w r).asks v q := by
  refine a.imp (fun e => (request_waitingOf_ne s r h).trans e) ?_
  rw [request_granted]
  exact id

/-- What is asked for depends on the engine alone. -/
theorem asks_congr {s t : State} (h : t.dma = s.dma) {w : Requester} {r : Request} : t.asks w r ↔ s.asks w r := by
  simp [State.asks, h]

theorem asks_busy {s : State} {w : Requester} {r : Request} (a : s.asks w r) : s.dma.busy w = true := by
  rcases a with h | ⟨g, hg, hw, -⟩
  · cases w <;> simp_all [Arbiter.busy, Arbiter.waitingOf]
  · simp [Arbiter.busy, Arbiter.holds, hg, hw]

theorem drop_waitingOf (d : Arbiter) (v w : Requester) :
    (d.drop w).waitingOf v = if v = w then none else d.waitingOf v := by
  cases v <;> cases w <;> rfl

theorem drop_granted (d : Arbiter) (w : Requester) : (d.drop w).granted = d.granted := by
  cases w <;> rfl

theorem next_some {d : Arbiter} {w : Requester} {r : Request} : ∀ {ws}, d.next ws = some (w, r) → d.waitingOf w = some r
  | [], h => by simp [Arbiter.next] at h
  | v :: vs, h => by
    unfold Arbiter.next at h
    split at h
    · next q hq =>
      simp only [Option.some.injEq, Prod.mk.injEq] at h
      rw [← h.1, ← h.2, hq]
    · exact next_some h

theorem next_none {d : Arbiter} : ∀ {ws}, d.next ws = none → ∀ w ∈ ws, d.waitingOf w = none
  | [], _, _, h => by simp at h
  | v :: vs, h, w, hw => by
    unfold Arbiter.next at h
    split at h
    · simp at h
    · next hv =>
      rcases List.mem_cons.1 hw with e | e
      · rw [e, hv]
      · exact next_none h w e

theorem mem_rotation (w v : Requester) : w ∈ v.rotation := by
  cases w <;> cases v <;> decide

theorem asks_grant {s : State} {w : Requester} {r : Request} (a : s.asks w r) : s.grant.asks w r := by
  unfold State.grant
  split
  · exact a
  · next hg =>
    split
    · exact a
    · split
      · exact a
      · next v q hv =>
        rcases a with h | ⟨g, h, -⟩
        · by_cases e : w = v
          · subst e
            have := next_some hv
            rw [h] at this
            right
            exact ⟨_, rfl, rfl, by simpa using this.symm⟩
          · left
            show (s.dma.drop v).waitingOf w = some r
            rw [drop_waitingOf, if_neg e, h]
        · rw [hg] at h; cases h

/-- Outside FAULTED a granted decision leaves nobody waiting at a free engine (R167). -/
theorem grant_engineOk (s : State) : s.grant.engineOk := by
  unfold State.grant
  split
  · next g hg => intro _ h; simp [hg] at h
  · split
    · next h => exact fun h' => absurd h h'
    · split
      · next hn =>
        intro _ _
        exact ⟨next_none hn .journal (mem_rotation _ _), next_none hn .walker (mem_rotation _ _),
          next_none hn .settings (mem_rotation _ _)⟩
      · intro _ h; simp at h

/-! ## The parts of the settling -/

theorem asks_beginClose {s : State} {w : Requester} {r : Request} (page : OpenPage) (why : CloseReason) (hw : w ≠ .journal)
    (a : s.asks w r) : (s.beginClose page why).asks w r := by
  simp only [State.beginClose]
  exact asks_request_ne _ hw ((asks_congr rfl).2 a)

theorem asks_pumpRecord {s : State} {w : Requester} {r : Request} (a : s.asks w r) : s.pumpRecord.asks w r := by
  unfold State.pumpRecord
  split
  · split
    · exact a
    · next hb =>
      have hw : w ≠ .journal := by
        rintro rfl
        simp [asks_busy a] at hb
      split
      · exact asks_request_ne _ hw a
      · exact asks_beginClose _ _ hw a
  · exact a

theorem endEpisode_dma (s : State) : s.endEpisode.dma = s.dma := by
  unfold State.endEpisode; split <;> rfl

theorem haltJournal_dma (s : State) : s.haltJournal.dma = s.dma := by
  unfold State.haltJournal
  refine (forLanes_keep State.dma _ (fun _ _ => rfl) _).trans ?_
  exact endEpisode_dma s

theorem asks_pumpDrain {s : State} {w : Requester} {r : Request} (a : s.asks w r) : s.pumpDrain.asks w r := by
  unfold State.pumpDrain
  split
  · split
    · split
      · exact a
      · next hb =>
        have hw : w ≠ .journal := by
          rintro rfl
          simp [asks_busy a] at hb
        split
        · exact (asks_congr (haltJournal_dma _)).2 a
        · exact asks_beginClose _ _ hw a
    · exact (asks_congr (haltJournal_dma _)).2 a
    · exact (asks_congr (haltJournal_dma _)).2 a
    · exact a
  · exact a

theorem asks_rewriteTarget {s : State} {w : Requester} {r : Request} (t : StatusTarget) (hw : w ≠ .settings)
    (a : s.asks w r) : (s.rewriteTarget t).asks w r := by
  unfold State.rewriteTarget
  split
  · exact asks_request_ne _ hw ((asks_congr rfl).2 a)
  · exact asks_request_ne _ hw ((asks_congr rfl).2 a)

theorem asks_pumpSettings {s : State} {w : Requester} {r : Request} (a : s.asks w r) : s.pumpSettings.asks w r := by
  unfold State.pumpSettings
  split
  · exact a
  · next hb =>
    have hw : w ≠ .settings := by
      rintro rfl
      exact hb (asks_busy a)
    split
    · unfold State.pumpLoad
      split
      · exact a
      · exact asks_request_ne _ hw a
      · exact asks_request_ne _ hw a
      · unfold State.pumpStatus
        split
        · next t _ => exact (asks_congr rfl).2 (asks_rewriteTarget t hw a)
        · exact a
    all_goals first
      | exact a
      | skip
    all_goals
      unfold State.pumpRun
      split
      · exact asks_request_ne _ hw a
      · exact asks_request_ne _ hw ((asks_congr rfl).2 a)
      · unfold State.pumpRewrite
        split
        · exact asks_rewriteTarget _ hw a
        · exact a

/-- A request made in an event is still asked for at its end. -/
theorem asks_settle {s : State} {w : Requester} {r : Request} (a : s.asks w r) : s.settle.asks w r :=
  asks_grant (asks_pumpSettings (asks_pumpDrain (asks_pumpRecord a)))

theorem settle_engineOk (s : State) : s.settle.engineOk := grant_engineOk _

/-! ## The grant before the decision -/

theorem pumpRecord_granted (s : State) : s.pumpRecord.dma.granted = s.dma.granted := by
  unfold State.pumpRecord State.beginClose
  split
  · split
    · rfl
    · split <;> rw [request_granted]
  · rfl

theorem pumpDrain_granted (s : State) : s.pumpDrain.dma.granted = s.dma.granted := by
  unfold State.pumpDrain State.beginClose State.releasePage
  split
  · split
    · split
      · rfl
      · split
        · rw [haltJournal_dma]
        · rw [request_granted]
    · rw [haltJournal_dma]
    · rw [haltJournal_dma]
    · rfl
  · rfl

theorem rewriteTarget_granted (s : State) (t : StatusTarget) : (s.rewriteTarget t).dma.granted = s.dma.granted := by
  unfold State.rewriteTarget State.writeDeviceStatus State.writeLaneStatus
  split
  · rw [request_granted]
  · rw [request_granted]; rfl

theorem pumpSettings_granted (s : State) : s.pumpSettings.dma.granted = s.dma.granted := by
  unfold State.pumpSettings State.pumpLoad State.pumpStatus State.pumpRun State.pumpRewrite State.writeLaneStatus
  repeat' split
  all_goals first
    | rfl
    | rw [request_granted]
    | exact rewriteTarget_granted _ _

/-- In FAULTED an event's end grants nothing (R168). -/
theorem settle_faulted {s : State} (h : s.run.device = .faulted) : s.settle.dma.granted = s.dma.granted := by
  have hd : s.pumpRecord.pumpDrain.pumpSettings.run.device = .faulted := by
    have h1 := (QuietFrame.pumpRecord s).run
    have h2 := (pumpDrain_frame s.pumpRecord).run
    have h3 := (QuietFrame.pumpSettings s.pumpRecord.pumpDrain).run
    rw [h3]
    rcases h2 with e | ⟨e, -⟩
    · rw [e, h1, h]
    · simp [State.drained, h1, h] at e
  rw [State.settle, State.grant]
  split
  · rw [pumpSettings_granted, pumpDrain_granted, pumpRecord_granted]
  · rw [if_pos hd, pumpSettings_granted, pumpDrain_granted, pumpRecord_granted]

/-- Run control after an event's end: the same, but at the end of the drain. -/
theorem settle_run {s : State} (h : s.drained = false) : s.settle.run = s.run :=
  (settle_frame s).run.resolve_right fun e => by simp [h] at e

end Sys2Proof.Machine
end

