-- ==== Sys2Proof/Laws/Cut.lean ====
section
/-! SUPPORT. The cutting of frames at HALT and at a fault (R50, R51), lane by lane, and the entry to FAULTED. -/

namespace Sys2Proof.Machine

/-! ## One lane function after the other -/

/-- A fold over the lanes that changes each lane by its own function, as long as `P` holds. -/
theorem foldl_lane (P : State → Prop) (f : Lane → State → State) (g : Lane → LaneUnit → LaneUnit)
    (hP : ∀ l s, P s → P (f l s)) (h1 : ∀ l s, P s → (f l s).lane l = g l (s.lane l))
    (h2 : ∀ l m s, P s → m ≠ l → (f l s).lane m = s.lane m) (m : Lane) :
    ∀ (ls : List Lane) (s : State), P s → ls.Nodup →
      P (ls.foldl (fun s l => f l s) s) ∧ (ls.foldl (fun s l => f l s) s).lane m = if m ∈ ls then g m (s.lane m) else s.lane m
  | [], s, h, _ => ⟨h, by simp⟩
  | l :: ls, s, h, hn => by
    obtain ⟨a, b⟩ := foldl_lane P f g hP h1 h2 m ls (f l s) (hP l s h) (List.nodup_cons.1 hn).2
    refine ⟨a, ?_⟩
    rw [List.foldl_cons, b]
    have hl := (List.nodup_cons.1 hn).1
    by_cases e : m = l
    · subst e; simp [hl, h1 m s h]
    · simp [e, h2 l m s h e]

theorem forLanes_lane (P : State → Prop) (f : Lane → State → State) (g : Lane → LaneUnit → LaneUnit)
    (hP : ∀ l s, P s → P (f l s)) (h1 : ∀ l s, P s → (f l s).lane l = g l (s.lane l))
    (h2 : ∀ l m s, P s → m ≠ l → (f l s).lane m = s.lane m) (s : State) (h : P s) :
    P (s.forLanes f) ∧ ∀ m, (s.forLanes f).lane m = g m (s.lane m) :=
  ⟨(foldl_lane P f g hP h1 h2 0 allLanes s h allLanes_nodup).1, fun m => by
    rw [State.forLanes, (foldl_lane P f g hP h1 h2 m allLanes s h allLanes_nodup).2, if_pos (mem_allLanes m)]⟩

/-- Two folds over the lanes that agree while `P` holds. -/
theorem forLanes_congr (P : State → Prop) (f g : Lane → State → State) (hP : ∀ l s, P s → P (f l s))
    (h : ∀ l s, P s → f l s = g l s) (s : State) (hs : P s) : s.forLanes f = s.forLanes g := by
  have : ∀ (ls : List Lane) (s : State), P s → ls.foldl (fun s l => f l s) s = ls.foldl (fun s l => g l s) s := by
    intro ls
    induction ls with
    | nil => intro s _; rfl
    | cons l ls ih =>
      intro s hs
      rw [List.foldl_cons, List.foldl_cons, ih _ (hP l s hs), h l s hs]
  exact this allLanes s hs

/-! ## One cut -/

/-- A port whose frame in assembly, if any, has been cut (R50). -/
def ScanPort.cut (q : ScanPort) : ScanPort := if q.frame = .assembling then { q.clearFrame with frame := .discarding } else q

/-- A lane with both ports cut. -/
def LaneUnit.cut (u : LaneUnit) : LaneUnit := { u with portA := u.portA.cut, portB := u.portB.cut }

theorem setLane_lane (s : State) (l : Lane) : s.setLane l (s.lane l) = s := by
  simp [State.setLane, State.lane]

theorem modPort_cut_other {s : State} {l : Lane} {p : Port} (h : ((s.lane l).port p).frame ≠ .assembling) :
    s.modPort l p ScanPort.cut = s := by
  have : (s.lane l).modPort p ScanPort.cut = s.lane l := by
    cases p <;> simp_all [LaneUnit.modPort, ScanPort.cut, LaneUnit.port]
  rw [State.modPort, State.modLane, this, setLane_lane]

theorem modPort_cut_assembling {s : State} {l : Lane} {p : Port} (h : ((s.lane l).port p).frame = .assembling) :
    s.modPort l p (fun q => { q.clearFrame with frame := .discarding }) = s.modPort l p ScanPort.cut := by
  have : (s.lane l).modPort p (fun q => { q.clearFrame with frame := .discarding }) = (s.lane l).modPort p ScanPort.cut := by
    cases p <;> simp_all [LaneUnit.modPort, ScanPort.cut, LaneUnit.port]
  rw [State.modPort, State.modLane, this, State.modPort, State.modLane]

/-- Outside RUNNING and STOPPING a cut is neither reported nor counted (R51). -/
theorem cutFrame_silent {s : State} (h : s.inRun = false) (l : Lane) (p : Port) : s.cutFrame l p = s.modPort l p ScanPort.cut := by
  simp only [State.cutFrame]
  split
  · next e =>
    rw [modPort_cut_assembling e]
    split
    · next hd => simp [State.inRun] at h; exact absurd hd h.1
    · next hd => simp [State.inRun] at h; exact absurd hd h.2
    · rfl
  · next e => rw [modPort_cut_other e]

/-- In STOPPING a cut is counted without a record (R51). -/
theorem cutFrame_stopping {s : State} (h : s.run.device = .stopping) (l : Lane) (p : Port) :
    s.cutFrame l p = if ((s.lane l).port p).frame = .assembling then (s.modPort l p ScanPort.cut).count l .labelsRefused
      else s := by
  simp only [State.cutFrame]
  split
  · next e =>
    rw [modPort_cut_assembling e]
    simp [h]
  · rfl

theorem cutAll_silent {s : State} (h : s.inRun = false) : s.cutAll = s.forLanes fun l s => s.modLane l LaneUnit.cut := by
  refine forLanes_congr (fun t => t.inRun = false) _ _ ?_ ?_ s h
  · intro l s h
    rw [cutFrame_silent h, cutFrame_silent (by exact h)]
    exact h
  · intro l s h
    rw [cutFrame_silent h, cutFrame_silent (by exact h)]
    simp [State.modPort, State.modLane, State.setLane, State.lane, LaneUnit.modPort, LaneUnit.cut]

/-! ## The entry to FAULTED (R181) -/

/-- The entry to FAULTED, block by block. -/
theorem enterFaulted_spec (s : State) (why : FaultReason) :
    (s.enterFaulted why).run = { s.run with device := .faulted, fault := why, causes := s.run.causes ||| Cause.fault.bit } ∧
    (s.enterFaulted why).walker = { s.walker with state := .halted, recheck := none } ∧
    (∀ l, (s.enterFaulted why).lane l = { (s.lane l).cut with kb := { (s.lane l).kb with capture := none } }) ∧
    (s.enterFaulted why).pending = s.pending ∧ (s.enterFaulted why).staging = s.staging ∧
    (s.enterFaulted why).journal = s.journal ∧
    (s.enterFaulted why).unit = { s.unit with devRewrite := s.unit.devRewrite || s.walker.state != .halted } ∧
    (s.enterFaulted why).dma = s.dma ∧
    (s.enterFaulted why).hostMem = s.hostMem ∧ (s.enterFaulted why).causeReadData = s.causeReadData ∧
    (s.enterFaulted why).freeUsed = s.freeUsed := by
  obtain ⟨x, hx, k, hl⟩ : ∃ x : State, s.enterFaulted why = { x with
        walker.state := .halted, walker.recheck := none
        unit.devRewrite := x.unit.devRewrite || x.walker.state != .halted } ∧
      (∀ {β : Type} (g : State → β), (∀ s l f, g (State.modLane s l f) = g s) →
        g x = g (({ s with run.device := .faulted, run.fault := why } : State).raise .fault)) ∧
      ∀ l, x.lane l = { (s.lane l).cut with kb := { (s.lane l).kb with capture := none } } := by
    refine ⟨_, by rw [State.enterFaulted, cutAll_silent (by simp [State.inRun, State.raise])], fun g hg => ?_, fun l => ?_⟩
    · exact (forLanes_keep g _ (fun l s => hg s l _) _).trans (forLanes_keep g _ (fun l s => hg s l _) _)
    · rw [forLanes_modLane _ (fun _ => LaneUnit.dropCapture) l, forLanes_modLane _ (fun _ => LaneUnit.cut) l]
      rfl
  rw [hx]
  refine ⟨k State.run fun _ _ _ => rfl, ?_, hl, k State.pending fun _ _ _ => rfl, k State.staging fun _ _ _ => rfl,
    k State.journal fun _ _ _ => rfl, ?_, k State.dma fun _ _ _ => rfl,
    k State.hostMem fun _ _ _ => rfl, k State.causeReadData fun _ _ _ => rfl, k State.freeUsed fun _ _ _ => rfl⟩
  all_goals have hw := k State.walker fun _ _ _ => rfl
  · show ({ x.walker with state := .halted, recheck := none } : Walker) = _
    rw [hw]
    rfl
  · have hu := k State.unit fun _ _ _ => rfl
    show ({ x.unit with devRewrite := x.unit.devRewrite || x.walker.state != .halted } : SettingsUnit) = _
    rw [hw, hu]
    rfl

/-- A link abort, block by block (R134, R153, R168, R181). -/
theorem linkAbort_spec (s : State) :
    s.linkAbort.run = { s.run with device := .faulted, fault := .linkAbort, causes := s.run.causes ||| Cause.fault.bit } ∧
    s.linkAbort.walker = { s.walker with state := .halted, recheck := none } ∧
    s.linkAbort.journal = { s.journal with state := .halted, linger := none, recheck := none } ∧
    (∀ l, s.linkAbort.lane l = { (s.lane l).cut with kb := { (s.lane l).kb with capture := none } }) ∧
    s.linkAbort.pending = s.pending ∧ s.linkAbort.staging = s.staging ∧
    s.linkAbort.unit = { s.unit with devRewrite := s.unit.devRewrite || s.walker.state != .halted } ∧
    s.linkAbort.dma = { s.dma with granted := none } ∧ s.linkAbort.hostMem = s.abandon.hostMem ∧
    s.linkAbort.causeReadData = s.causeReadData ∧ s.linkAbort.freeUsed = s.abandon.freeUsed := by
  obtain ⟨h1, h2, h3, h4, h5, h6, h7, h8, h9, h10, h11⟩ := enterFaulted_spec s.abandon .linkAbort
  have ab : s.abandon = { s with hostMem := s.abandon.hostMem, freeUsed := s.abandon.freeUsed, dma.granted := none } := by
    unfold State.abandon
    split
    · next h => rw [← h]
    · rfl
  rw [State.linkAbort]
  generalize s.abandon.enterFaulted .linkAbort = x at *
  have hl : ∀ l, s.abandon.lane l = s.lane l := fun l => lane_congr (by rw [ab]) l
  refine ⟨h1.trans ?_, h2.trans ?_, ?_, fun l => (h3 l).trans ?_, h4.trans ?_, h5.trans ?_, h7.trans ?_, h8.trans ?_, h9,
    h10.trans ?_, h11⟩
  · rw [ab]
  · rw [ab]
  · show ({ x.journal with state := .halted, linger := none, recheck := none } : Journal) = _
    rw [h6, ab]
  · rw [hl]
  all_goals rw [ab]

end Sys2Proof.Machine
end

