-- ==== Sys2Proof/Laws/Recorded.lean ====
section
/-! SUPPORT. What an event with room produces and counts: records that stand in the queue (R101 to R103), and counters (R165). -/

namespace Sys2Proof.Machine

/-! ## Counters -/

theorem Counter.index_ne {c d : Counter} (h : c ≠ d) : c.index ≠ d.index := by
  cases c <;> cases d <;> first | exact absurd rfl h | decide

/-- Counting moves one counter of one lane. -/
theorem count_counter (s : State) (l m : Lane) (c d : Counter) :
    ((s.count l c).lane m).counters[d.index] = (s.lane m).counters[d.index] +
      if m = l ∧ d = c ∧ (s.lane l).settings.inhibit.getLsbD c.index.val = false then 1 else 0 := by
  by_cases h : (s.lane l).settings.inhibit.getLsbD c.index.val = true
  · have e : s.count l c = s := by simp [State.count, h]
    rw [e]
    simp [h]
  · have h' : (s.lane l).settings.inhibit.getLsbD c.index.val = false := by simpa using h
    have key : ∀ u : LaneUnit, u.counters = ((s.lane l).bump c).counters →
        ((s.setLane l u).lane m).counters[d.index] = (s.lane m).counters[d.index] +
          if m = l ∧ d = c ∧ (s.lane l).settings.inhibit.getLsbD c.index.val = false then 1 else 0 := by
      intro u hu
      rw [lane_setLane]
      by_cases e : m = l
      · subst e
        rw [if_pos rfl, hu]
        by_cases e2 : d = c
        · subst e2
          have h2 : (s.lane m).settings.inhibit.getLsbD d.index.val = false := h'
          simp only [LaneUnit.bump, Fin.getElem_fin, Vector.getElem_set_self, h2, and_self, if_true]
        · have e3 : c.index.val ≠ d.index.val := fun x => Counter.index_ne (Ne.symm e2) (Fin.ext x)
          simp only [LaneUnit.bump, Fin.getElem_fin, e2, false_and, and_false, if_false]
          exact (Vector.getElem_set_ne _ _ e3).trans (BitVec.add_zero _).symm
      · simp [e]
    by_cases hn : (s.lane l).highNotice c = true
    · have e : s.count l c =
          (s.setLane l { (s.lane l).bump c with noted := setBit8 (s.lane l).noted c.index, rewrite := true }).raise .stats := by
        simp only [State.count]
        rw [if_neg h, if_pos hn]
      rw [e]
      exact key _ rfl
    · have e : s.count l c = s.setLane l ((s.lane l).bump c) := by
        simp only [State.count]
        rw [if_neg h, if_neg hn]
      rw [e]
      exact key _ rfl

theorem count_losses (s : State) (l m : Lane) (c : Counter) : ((s.count l c).lane m).losses = (s.lane m).losses := by
  rw [count_lane]

theorem addLoss_counters (u : LaneUnit) (cls : Nat) : (u.addLoss cls).counters = u.counters := by
  unfold LaneUnit.addLoss; split <;> rfl

theorem stage_counters (s : State) (l m : Lane) (b : RecordBody) : ((s.stage l b).lane m).counters = (s.lane m).counters := by
  rw [stage_lane]
  split
  · next e => subst e; rfl
  · rfl

theorem modLoss_counters (s : State) (l m : Lane) (cls : Nat) :
    ((s.modLane l (fun u => u.addLoss cls)).lane m).counters = (s.lane m).counters := by
  rw [lane_modLane]
  split
  · next e => subst e; exact addLoss_counters _ _
  · rfl

theorem counter_of {v w : Vector (BitVec 16) 8} (h : v = w) (d : Counter) : v[d.index] = w[d.index] :=
  congrArg (fun x : Vector (BitVec 16) 8 => x[d.index]) h

/-- An offer counts a loss at most (R107). -/
theorem offer_counter (s : State) (l m : Lane) (b : RecordBody) (d : Counter) (h : d ≠ .lost) :
    ((s.offer l b).lane m).counters[d.index] = (s.lane m).counters[d.index] := by
  by_cases h1 : produced s.run.device b.cls = true
  · by_cases h2 : s.hasRoom l b.cls = true
    · have e : s.offer l b = s.stage l b := by simp [State.offer, h1, h2]
      rw [e]
      exact counter_of (stage_counters s l m b) d
    · have e : s.offer l b = s.lose l b.cls := by simp [State.offer, h1, h2]
      rw [e]
      refine (count_counter _ _ _ _ _).trans ?_
      rw [if_neg fun x => h x.2.1]
      exact (BitVec.add_zero _).trans (counter_of (modLoss_counters s l m _) d)
  · have e : s.offer l b = s := by simp [State.offer, h1]
    rw [e]

/-! ## Room -/

/-- `n` records of lane `l` of any class can enter the queue of `s`. -/
structure Room (n : Nat) (l : Lane) (s : State) : Prop where
  running : s.run.device = .running ∨ s.run.device = .stopping
  loss0 : (s.lane l).losses[0] = 0
  loss1 : (s.lane l).losses[1] = 0
  fill : s.staging.queue.length + n ≤ 88

theorem State.roomy.room {s : State} {l : Lane} (h : s.roomy l) : Room 8 l s :=
  ⟨h.1, h.2.1, h.2.2.1, by have := h.2.2.2; omega⟩

theorem Room.mono {n k : Nat} {l : Lane} {s : State} (h : Room n l s) (hk : k ≤ n) : Room k l s :=
  ⟨h.running, h.loss0, h.loss1, by have := h.fill; omega⟩

/-- Room depends on the device state, the lane's losses, and the fill. -/
theorem Room.congr {n : Nat} {l : Lane} {s t : State} (h : Room n l s) (hd : t.run.device = s.run.device)
    (hl : (t.lane l).losses = (s.lane l).losses) (hq : t.staging.queue = s.staging.queue) : Room n l t :=
  ⟨by rw [hd]; exact h.running, by rw [hl]; exact h.loss0, by rw [hl]; exact h.loss1, by rw [hq]; exact h.fill⟩

theorem Room.hasRoom {n : Nat} {l : Lane} {s : State} (h : Room (n + 1) l s) (cls : Nat) : s.hasRoom l cls = true := by
  have := h.fill
  have h0 := h.loss0
  have h1 := h.loss1
  unfold State.hasRoom LaneUnit.lossHeld
  split
  · simp only [h0, h1, Bool.and_eq_true, decide_eq_true_eq]
    exact ⟨by omega, rfl⟩
  · simp; omega

theorem count_seq (s : State) (l m : Lane) (c : Counter) : ((s.count l c).lane m).seq = (s.lane m).seq := by
  rw [count_lane]

/-! ## Records offered (R101 to R103, R105) -/

/-- From `s` to `t`, with the clock, the device state and the flow marks as they are, lane `l` offers the records `bs`: with room for
them, `Produces`, and no loss. Closed under composition, record list after record list. -/
structure Offers (l : Lane) (s t : State) (bs : List RecordBody) : Prop where
  device : t.run.device = s.run.device
  clock : t.run.clock = s.run.clock
  host : t.unit.host = s.unit.host
  losses : Room bs.length l s → (t.lane l).losses = (s.lane l).losses
  makes : Room bs.length l s → Produces s t l bs

theorem Produces.length {s t : State} {l : Lane} {bs : List RecordBody} (h : Produces s t l bs) :
    t.staging.queue.length ≤ s.staging.queue.length + bs.length := by
  rw [h.1]
  simp only [List.length_append, stamped_length]
  exact Nat.add_le_add_left (List.length_filter_le _ _) _

/-- The room that is left. -/
theorem Offers.room {n : Nat} {l : Lane} {s t : State} {bs : List RecordBody} (h : Offers l s t bs) (r : Room (n + bs.length) l s) :
    Room n l t := by
  have r' : Room bs.length l s := r.mono (by omega)
  have len := (h.makes r').length
  have fill := r.fill
  exact ⟨by rw [h.device]; exact r.running, by rw [h.losses r']; exact r.loss0, by rw [h.losses r']; exact r.loss1, by omega⟩

/-- What moves neither the staging queue nor the lane's sequence and losses offers nothing. -/
theorem Offers.quiet {l : Lane} {s t : State} (hd : t.run.device = s.run.device) (hc : t.run.clock = s.run.clock)
    (hh : t.unit.host = s.unit.host) (hs : t.staging = s.staging) (hq : (t.lane l).seq = (s.lane l).seq)
    (hl : (t.lane l).losses = (s.lane l).losses) : Offers l s t [] where
  device := hd
  clock := hc
  host := hh
  losses _ := hl
  makes _ := ⟨by rw [hs]; simp, by rw [hq]; simp⟩

theorem Offers.refl (l : Lane) (s : State) : Offers l s s [] := Offers.quiet rfl rfl rfl rfl rfl rfl

theorem Produces.append {s t u : State} {l : Lane} {as bs : List RecordBody} (a : Produces s t l as) (b : Produces t u l bs)
    (hd : t.run.device = s.run.device) (hc : t.run.clock = s.run.clock) (hh : t.unit.host = s.unit.host) :
    Produces s u l (as ++ bs) := by
  obtain ⟨a1, a2⟩ := a
  obtain ⟨b1, b2⟩ := b
  rw [hd, hc, hh, a1, a2] at b1
  rw [hd, a2] at b2
  simp only [Produces, List.filter_append]
  generalize as.filter _ = xs at *
  generalize bs.filter _ = ys at *
  refine ⟨?_, ?_⟩
  · rw [b1]
    simp only [stamped_append, List.length_append, stamped_length, List.append_assoc, Staging.mk.injEq, true_and, and_true]
    cases xs <;> cases ys <;> (simp [Bool.or_assoc]; try grind)
  · rw [b2, List.length_append, BitVec.ofNat_add, BitVec.add_assoc]

theorem Offers.trans {l : Lane} {s t u : State} {as bs : List RecordBody} (a : Offers l s t as) (b : Offers l t u bs) :
    Offers l s u (as ++ bs) where
  device := b.device.trans a.device
  clock := b.clock.trans a.clock
  host := b.host.trans a.host
  losses r := by
    rw [List.length_append, Nat.add_comm] at r
    exact (b.losses (a.room r)).trans (a.losses (r.mono (by omega)))
  makes r := by
    rw [List.length_append, Nat.add_comm] at r
    exact (a.makes (r.mono (by omega))).append (b.makes (a.room r)) a.device a.clock a.host

/-- A change of a lane unit that keeps its sequence and losses offers nothing. -/
theorem Offers.modLane {l m : Lane} {s : State} {f : LaneUnit → LaneUnit} (hs : (f (s.lane m)).seq = (s.lane m).seq)
    (hl : (f (s.lane m)).losses = (s.lane m).losses) : Offers l s (s.modLane m f) [] := by
  refine Offers.quiet rfl rfl rfl rfl ?_ ?_ <;> rw [lane_modLane] <;> split
  · next e => subst e; exact hs
  · rfl
  · next e => subst e; exact hl
  · rfl

theorem Offers.modPort {l m : Lane} {s : State} {p : Port} {f : ScanPort → ScanPort} : Offers l s (s.modPort m p f) [] :=
  Offers.modLane (by cases p <;> rfl) (by cases p <;> rfl)

theorem Offers.count (l m : Lane) (s : State) (c : Counter) : Offers l s (s.count m c) [] := by
  have f := (LaneStep.count (l := m) s c).toLaneFrame
  exact Offers.quiet f.device f.clock (by rw [f.unit]) (count_staging s m c) (count_seq s m l c) (count_losses s m l c)

theorem stage_staging (s : State) (l : Lane) (b : RecordBody) :
    (s.stage l b).staging = { s.staging with
      queue := s.staging.queue ++ [⟨b, some l, s.run.clock, (s.lane l).seq⟩]
      hold := s.staging.hold || decide (s.unit.host.flowHigh ≤ s.staging.queue.length + 1) } := by
  unfold State.stage State.testHigh
  split
  · next h => simp at h ⊢; simp [h]
  · next h => simp at h ⊢; simp [h]

/-- A record that is offered (R100, R102). -/
theorem Offers.offer (l : Lane) (s : State) (b : RecordBody) : Offers l s (s.offer l b) [b] where
  device := (LaneStep.offer (l := l) s b).toLaneFrame.device
  clock := (LaneStep.offer (l := l) s b).toLaneFrame.clock
  host := by rw [(LaneStep.offer (l := l) s b).toLaneFrame.unit]
  losses r := by
    unfold State.offer
    split
    · rw [if_pos (r.hasRoom _), stage_lane, if_pos rfl]
    · rfl
  makes r := by
    have hp : produced s.run.device b.cls = decide (s.run.device = .running ∨ 2 ≤ b.cls) := by
      rcases r.running with h | h <;> simp [produced, h]
    simp only [Produces, State.offer, hp]
    by_cases h : s.run.device = .running ∨ 2 ≤ b.cls
    · rw [if_pos (by simpa using h), if_pos (r.hasRoom _), stage_staging, stage_lane, if_pos rfl]
      simp [h]
    · rw [if_neg (by simpa using h)]
      simp [h]

/-- A frame that is cut (R50, R51). -/
theorem Offers.cutFrame (l : Lane) (s : State) (p : Port) :
    Offers l s (s.cutFrame l p)
      (if ((s.lane l).port p).frame = .assembling then [.labelRefused p (.cut ((s.lane l).port p).text.length)] else []) := by
  simp only [State.cutFrame]
  split
  · have e : (s.modPort l p fun q => { q.clearFrame with frame := .discarding }).run.device = s.run.device := rfl
    split
    · exact (Offers.modPort.trans (Offers.offer l _ _)).trans (Offers.count l l _ _)
    · next hd =>
      have base := (Offers.modPort (l := l) (s := s) (m := l) (p := p) (f := fun q => { q.clearFrame with frame := .discarding })).trans
        (Offers.count l l _ .labelsRefused)
      refine ⟨base.device, base.clock, base.host, fun r => base.losses (r.mono (by simp)), fun r => ?_⟩
      have := base.makes (r.mono (by simp))
      have h : s.run.device = .stopping := hd
      simpa [Produces, RecordBody.cls, h] using this
    · next h1 h2 =>
      refine ⟨rfl, rfl, rfl, fun r => ?_, fun r => ?_⟩ <;> rcases r.running with h | h
      · exact absurd h h1
      · exact absurd h h2
      · exact absurd h h1
      · exact absurd h h2
  · exact Offers.refl l s

/-- A receiver follows its lane, and cuts the frame it held when it turns OFF (R42). -/
theorem Offers.followReceiver (l : Lane) (s : State) (p : Port) :
    Offers l s (s.followReceiver l p)
      (if ((s.lane l).port p).on = true ∧ (s.lane l).receiverOn p = false ∧ ((s.lane l).port p).frame = .assembling then
        [.labelRefused p (.cut ((s.lane l).port p).text.length)] else []) := by
  simp only [State.followReceiver]
  split
  · next h =>
    rw [if_neg fun x => by simp [h, x.1] at x]
    exact Offers.refl l s
  · next h =>
    split
    · next h2 =>
      rw [if_neg fun x => by simp [h2] at x]
      exact Offers.modPort
    · next h2 =>
      have h3 : (s.lane l).receiverOn p = false := by simpa using h2
      have h4 : ((s.lane l).port p).on = true := by
        rw [h3] at h
        simpa using h
      have := (Offers.cutFrame l s p).trans (Offers.modPort (l := l) (m := l) (p := p) (f := ScanPort.turnOff))
      rw [List.append_nil] at this
      simpa only [h3, h4, true_and] using this

theorem Offers.followTone (l : Lane) (s : State) (p : Port) : Offers l s (s.followTone l p) [] := by
  simp only [State.followTone]
  split
  · exact Offers.refl l s
  · exact Offers.refl l s
  · exact Offers.modPort
  · exact Offers.modPort

end Sys2Proof.Machine
end

