-- ==== Sys2Proof/Laws/LaneChange.lean ====
section
/-! SUPPORT. What a change of lane state leaves in the lane (R2, R4, R21, R42, R50, R51, R55), with its records and counts, and what a wake and a drawer event leave (R7, R79). -/

namespace Sys2Proof.Machine

/-! ## What records and counts move in a lane -/

/-- `v` is `u` but for the books of its records and counters: counters, high-noted flags, sequence, losses, and the rewrite-pending
flag, which may have been set. -/
def Booked (u v : LaneUnit) : Prop :=
  v = { u with counters := v.counters, noted := v.noted, rewrite := v.rewrite, seq := v.seq, losses := v.losses } ∧
    (u.rewrite = true → v.rewrite = true)

theorem Booked.refl (u : LaneUnit) : Booked u u := ⟨rfl, id⟩

theorem Booked.trans {u v w : LaneUnit} (a : Booked u v) (b : Booked v w) : Booked u w := by
  refine ⟨?_, fun h => b.2 (a.2 h)⟩
  have h1 := a.1
  have h2 := b.1
  rw [h2, h1]

theorem booked_count (s : State) (l m : Lane) (c : Counter) : Booked (s.lane m) ((s.count l c).lane m) := by
  refine ⟨?_, ?_⟩
  · have := count_lane s l m c
    rw [this]
  · intro h
    simp only [State.count]
    split
    · exact h
    · split
      · rw [lane_congr (raise_lanes _ _), lane_setLane]
        split
        · rfl
        · exact h
      · rw [lane_setLane]
        split
        · next e => subst e; exact h
        · exact h

theorem booked_lose (s : State) (l m : Lane) (cls : Nat) : Booked (s.lane m) ((s.lose l cls).lane m) := by
  refine Booked.trans ?_ (booked_count _ l m _)
  rw [lane_modLane]
  split
  · next e =>
    subst e
    unfold LaneUnit.addLoss
    split <;> exact ⟨rfl, id⟩
  · exact Booked.refl _

theorem booked_stage (s : State) (l m : Lane) (b : RecordBody) : Booked (s.lane m) ((s.stage l b).lane m) := by
  rw [stage_lane]
  split
  · next e => subst e; exact ⟨rfl, id⟩
  · exact Booked.refl _

theorem booked_offer (s : State) (l m : Lane) (b : RecordBody) : Booked (s.lane m) ((s.offer l b).lane m) := by
  unfold State.offer
  split
  · split
    · exact booked_stage s l m b
    · exact booked_lose s l m _
  · exact Booked.refl _

theorem Booked.modPort {u v : LaneUnit} (h : Booked u v) (p : Port) (f g : ScanPort → ScanPort) (hf : g (v.port p) = f (u.port p)) :
    Booked (u.modPort p f) (v.modPort p g) := by
  obtain ⟨h1, h2⟩ := h
  generalize v.counters = a, v.noted = b, v.rewrite = c, v.seq = d, v.losses = e at h1 h2
  subst h1
  cases p
  · simp only [LaneUnit.port] at hf
    exact ⟨by simp only [LaneUnit.modPort, hf], h2⟩
  · simp only [LaneUnit.port] at hf
    exact ⟨by simp only [LaneUnit.modPort, hf], h2⟩

/-! ## Cuts, receivers and tones -/

theorem booked_cutFrame (s : State) (l : Lane) (p : Port) :
    Booked ((s.lane l).modPort p ScanPort.cut) ((s.cutFrame l p).lane l) := by
  simp only [State.cutFrame]
  split
  · next e =>
    rw [modPort_cut_assembling e]
    have base : (s.modPort l p ScanPort.cut).lane l = (s.lane l).modPort p ScanPort.cut := by simp [State.modPort]
    split
    · rw [← base]
      exact (booked_offer _ l l _).trans (booked_count _ l l _)
    · rw [← base]
      exact booked_count _ l l _
    · rw [base]; exact Booked.refl _
  · next e =>
    have := congrArg (fun t : State => t.lane l) (modPort_cut_other (s := s) (l := l) (p := p) e)
    simp only [State.modPort, lane_modLane_same] at this
    rw [this]
    exact Booked.refl _

theorem receiverOn_booked {u v : LaneUnit} (h : Booked u v) (p : Port) : v.receiverOn p = u.receiverOn p := by
  rw [h.1]; cases p <;> rfl

theorem portSettings_booked {u v : LaneUnit} (h : Booked u v) (p : Port) : v.portSettings p = u.portSettings p := by
  rw [h.1]; cases p <;> rfl

theorem port_booked {u v : LaneUnit} (h : Booked u v) (p : Port) : v.port p = u.port p := by
  rw [h.1]; cases p <;> rfl

/-- The port after its receiver has followed the lane (R42). -/
def LaneUnit.followed (u : LaneUnit) (p : Port) : ScanPort :=
  if u.receiverOn p = (u.port p).on then u.port p
  else if u.receiverOn p then (u.port p).turnOn (u.portSettings p)
  else (u.port p).cut.turnOff

/-- The port after its tone has followed the lane (R55). -/
def LaneUnit.toned (u : LaneUnit) (q : ScanPort) : ScanPort :=
  match u.laneState with
  | .active | .doze => q
  | .off | .disabled => q.stopTone

theorem modPort_port (u : LaneUnit) (p : Port) : u.modPort p (fun _ => u.port p) = u := by cases p <;> rfl

theorem booked_followReceiver (s : State) (l : Lane) (p : Port) :
    Booked ((s.lane l).modPort p fun _ => (s.lane l).followed p) ((s.followReceiver l p).lane l) := by
  simp only [State.followReceiver, LaneUnit.followed]
  split
  · rw [modPort_port]; exact Booked.refl _
  · split
    · rw [State.modPort, lane_modLane_same]
      exact (Booked.refl _).modPort p _ _ rfl
    · rw [State.modPort, lane_modLane_same]
      have h := booked_cutFrame s l p
      have h2 := h.modPort p ScanPort.turnOff ScanPort.turnOff (by rw [port_booked h])
      have : ((s.lane l).modPort p ScanPort.cut).modPort p ScanPort.turnOff =
          (s.lane l).modPort p fun _ => ((s.lane l).port p).cut.turnOff := by cases p <;> rfl
      rwa [this] at h2

theorem followTone_lane (s : State) (l : Lane) (p : Port) :
    (s.followTone l p).lane l = (s.lane l).modPort p fun q => (s.lane l).toned q := by
  simp only [State.followTone, LaneUnit.toned]
  have same : (s.lane l).modPort p (fun q => q) = s.lane l := by cases p <;> rfl
  split <;> simp_all [State.modPort]

theorem booked_follow {s : State} {l : Lane} {u : LaneUnit} (h : Booked u (s.lane l)) (p : Port) :
    Booked (u.modPort p fun _ => u.toned (u.followed p)) (((s.followReceiver l p).followTone l p).lane l) := by
  rw [followTone_lane]
  have h1 := booked_followReceiver s l p
  have e : (s.lane l).followed p = u.followed p := by
    simp only [LaneUnit.followed, receiverOn_booked h, portSettings_booked h, port_booked h]
  rw [e] at h1
  have h2 := (h.modPort p (fun _ => u.followed p) (fun _ => u.followed p) rfl).trans h1
  have h3 := h2.modPort p (fun q => u.toned q) (fun q => ((s.followReceiver l p).lane l).toned q) (by
    rw [port_booked h2]
    simp only [LaneUnit.toned]
    have : ((s.followReceiver l p).lane l).laneState = u.laneState := by rw [h2.1]; cases p <;> rfl
    rw [this])
  have : (u.modPort p fun _ => u.followed p).modPort p (fun q => u.toned q) = u.modPort p fun _ => u.toned (u.followed p) := by
    cases p <;> rfl
  rwa [this] at h3

/-! ## The change -/

/-- A lane unit whose state is `new`, with its idle timer as it stands after the change (R4). -/
def LaneUnit.entering (u : LaneUnit) (new : LaneState) : LaneUnit :=
  { u with laneState := new, rewrite := true, idle := if new = .active then u.settings.idlePeriod else none }

/-- A lane unit after a change of state: both ports and the scanner have followed. -/
def LaneUnit.changed (u : LaneUnit) (new : LaneState) (capture : Bool) : LaneUnit :=
  let v := u.entering new
  let w := { v with portA := v.toned (v.followed .a), portB := v.toned (v.followed .b) }
  if capture then w.startCapture else w.followScan

theorem Booked.followScan {u v : LaneUnit} (h : Booked u v) : Booked u.followScan v.followScan := by
  have hm : v.scanMode = u.scanMode := by rw [h.1]; rfl
  have hk : v.kb = u.kb := by rw [h.1]
  have hs : v.settings = u.settings := by rw [h.1]
  unfold LaneUnit.followScan
  rw [hm, hk, hs]
  split
  · exact h
  · exact ⟨by rw [h.1], h.2⟩

theorem Booked.startCapture {u v : LaneUnit} (h : Booked u v) : Booked u.startCapture v.startCapture := by
  obtain ⟨h1, h2⟩ := h
  generalize v.counters = a, v.noted = b, v.rewrite = c, v.seq = d, v.losses = e at h1 h2
  subst h1
  exact ⟨rfl, h2⟩

/-- A change of lane state, part by part. -/
theorem changeLane_eq (s : State) (l : Lane) (new : LaneState) (cause : StateCause) (capture : Bool) :
    s.changeLane l new cause capture =
      ((((((s.modLane l fun u => u.entering new).offer l (.laneState new cause)).followReceiver l .a).followTone l .a).followReceiver
        l .b).followTone l .b).modLane l fun u => if capture then u.startCapture else u.followScan := rfl

theorem booked_changeLane (s : State) (l : Lane) (new : LaneState) (cause : StateCause) (capture : Bool) :
    Booked ((s.lane l).changed new capture) ((s.changeLane l new cause capture).lane l) := by
  have h0 : Booked ((s.lane l).entering new)
      (((s.modLane l fun u => u.entering new).offer l (.laneState new cause)).lane l) := by
    have := booked_offer (s.modLane l fun u => u.entering new) l l (.laneState new cause)
    rwa [lane_modLane_same] at this
  have h2 := booked_follow (booked_follow h0 .a) .b
  have e : ((s.lane l).entering new).modPort .a (fun _ => ((s.lane l).entering new).toned (((s.lane l).entering new).followed .a)) =
      { (s.lane l).entering new with
        portA := ((s.lane l).entering new).toned (((s.lane l).entering new).followed .a) } := rfl
  rw [e] at h2
  have key : ∀ (q : State) (w : LaneUnit), Booked w (q.lane l) →
      Booked (if capture then w.startCapture else w.followScan)
        ((q.modLane l fun u => if capture then u.startCapture else u.followScan).lane l) := by
    intro q w hb
    rw [lane_modLane_same]
    cases capture
    · exact hb.followScan
    · exact hb.startCapture
  exact key _ _ h2

theorem followed_on (u : LaneUnit) (p : Port) : (u.followed p).on = u.receiverOn p := by
  unfold LaneUnit.followed
  split
  · next h => exact h.symm
  · split
    · next h => exact h.symm
    · next h => simpa [ScanPort.turnOff] using h

theorem toned_on (u : LaneUnit) (q : ScanPort) : (u.toned q).on = q.on := by
  unfold LaneUnit.toned; split <;> rfl

/-- A receiver that has turned OFF holds no frame (R42). -/
theorem followed_off {u : LaneUnit} {p : Port} (h1 : (u.port p).on = true) (h2 : u.receiverOn p = false) :
    (u.followed p).frame = .waiting ∧ (u.followed p).text = [] ∧ (u.followed p).gap = none := by
  unfold LaneUnit.followed
  rw [if_neg (by simp [h1, h2]), if_neg (by simp [h2])]
  exact ⟨rfl, rfl, rfl⟩

theorem toned_frame (u : LaneUnit) (q : ScanPort) :
    (u.toned q).frame = q.frame ∧ (u.toned q).text = q.text ∧ (u.toned q).gap = q.gap := by
  unfold LaneUnit.toned; split <;> exact ⟨rfl, rfl, rfl⟩

theorem changed_port (u : LaneUnit) (new : LaneState) (capture : Bool) (p : Port) :
    (u.changed new capture).port p = (u.entering new).toned ((u.entering new).followed p) := by
  unfold LaneUnit.changed LaneUnit.followScan LaneUnit.startCapture
  cases capture
  · simp only [Bool.false_eq_true, if_false]
    split <;> cases p <;> rfl
  · cases p <;> rfl

theorem changed_fields (u : LaneUnit) (new : LaneState) (capture : Bool) :
    (u.changed new capture).laneState = new ∧
    (u.changed new capture).idle = (if new = .active then u.settings.idlePeriod else none) ∧
    (u.changed new capture).rewrite = true ∧ (u.changed new capture).keylock = u.keylock ∧
    (u.changed new capture).drawer = u.drawer ∧ (u.changed new capture).acceptor = u.acceptor ∧
    (u.changed new capture).configured = u.configured ∧ (u.changed new capture).settings = u.settings := by
  unfold LaneUnit.changed LaneUnit.followScan LaneUnit.startCapture
  cases capture
  · simp only [Bool.false_eq_true, if_false]
    split <;> exact ⟨rfl, rfl, rfl, rfl, rfl, rfl, rfl, rfl⟩
  · exact ⟨rfl, rfl, rfl, rfl, rfl, rfl, rfl, rfl⟩

theorem changed_kb (u : LaneUnit) (new : LaneState) (capture : Bool) :
    (u.changed new capture).kb =
      if capture then { Keyboard.entered .scanning u.settings.pass with capture := some u.settings.debounce }
      else if { u with laneState := new }.scanMode = u.kb.mode then u.kb
      else Keyboard.entered { u with laneState := new }.scanMode u.settings.pass := by
  have gen : ∀ v : LaneUnit, v.configured = u.configured → v.laneState = new → v.settings = u.settings → v.kb = u.kb →
      v.followScan.kb = if { u with laneState := new }.scanMode = u.kb.mode then u.kb
        else Keyboard.entered { u with laneState := new }.scanMode u.settings.pass := by
    intro v a b c d
    have hm : v.scanMode = { u with laneState := new }.scanMode := by
      simp only [LaneUnit.scanMode, LaneUnit.wakesOn, a, b, c]
      rfl
    unfold LaneUnit.followScan
    rw [hm, c, d]
    split
    · exact d
    · rfl
  unfold LaneUnit.changed
  cases capture
  · exact gen _ rfl rfl rfl rfl
  · rfl

/-- From `s` to `t` the counter `d` of lane `l` has not moved. -/
def KeepsCounter (d : Counter) (l : Lane) (s t : State) : Prop := (t.lane l).counters[d.index] = (s.lane l).counters[d.index]

theorem KeepsCounter.of {d : Counter} {l : Lane} {s t : State} (h : (t.lane l).counters = (s.lane l).counters) :
    KeepsCounter d l s t := counter_of h d

theorem KeepsCounter.trans {d : Counter} {l : Lane} {s t u : State} (a : KeepsCounter d l s t) (b : KeepsCounter d l t u) :
    KeepsCounter d l s u := Eq.trans b a

theorem KeepsCounter.offer {d : Counter} (h : d ≠ .lost) (l : Lane) (s : State) (b : RecordBody) :
    KeepsCounter d l s (s.offer l b) := offer_counter s l l b d h

theorem KeepsCounter.count {c d : Counter} (h : d ≠ c) (l : Lane) (s : State) : KeepsCounter d l s (s.count l c) :=
  (count_counter s l l c d).trans (by rw [if_neg fun x => h x.2.1]; exact BitVec.add_zero _)

theorem KeepsCounter.modPort (d : Counter) (l : Lane) (s : State) (p : Port) (f : ScanPort → ScanPort) :
    KeepsCounter d l s (s.modPort l p f) := KeepsCounter.of (by rw [State.modPort, lane_modLane_same]; cases p <;> rfl)

theorem KeepsCounter.modLane {d : Counter} {l : Lane} {s : State} {f : LaneUnit → LaneUnit}
    (hf : (f (s.lane l)).counters = (s.lane l).counters) : KeepsCounter d l s (s.modLane l f) :=
  KeepsCounter.of (by rw [lane_modLane_same]; exact hf)

theorem KeepsCounter.cutFrame {d : Counter} (h1 : d ≠ .labelsRefused) (h2 : d ≠ .lost) (l : Lane) (s : State) (p : Port) :
    KeepsCounter d l s (s.cutFrame l p) := by
  simp only [State.cutFrame]
  split
  · split
    · exact ((KeepsCounter.modPort d l s p _).trans (KeepsCounter.offer h2 l _ _)).trans (KeepsCounter.count h1 l _)
    · exact (KeepsCounter.modPort d l s p _).trans (KeepsCounter.count h1 l _)
    · exact KeepsCounter.modPort d l s p _
  · exact rfl

theorem KeepsCounter.followReceiver {d : Counter} (h1 : d ≠ .labelsRefused) (h2 : d ≠ .lost) (l : Lane) (s : State) (p : Port) :
    KeepsCounter d l s (s.followReceiver l p) := by
  simp only [State.followReceiver]
  split
  · exact rfl
  · split
    · exact KeepsCounter.modPort d l s p _
    · exact (KeepsCounter.cutFrame h1 h2 l s p).trans (KeepsCounter.modPort d l _ p _)

theorem KeepsCounter.followTone (d : Counter) (l : Lane) (s : State) (p : Port) : KeepsCounter d l s (s.followTone l p) :=
  KeepsCounter.of (by rw [followTone_lane]; cases p <;> rfl)

theorem KeepsCounter.changeLane {d : Counter} (h1 : d ≠ .labelsRefused) (h2 : d ≠ .lost) (l : Lane) (s : State) (new : LaneState)
    (cause : StateCause) (capture : Bool) : KeepsCounter d l s (s.changeLane l new cause capture) := by
  rw [changeLane_eq]
  refine KeepsCounter.trans (KeepsCounter.trans (KeepsCounter.trans (KeepsCounter.trans (KeepsCounter.trans (KeepsCounter.trans
    (KeepsCounter.modLane ?_) (KeepsCounter.offer h2 l _ _)) (KeepsCounter.followReceiver h1 h2 l _ .a))
    (KeepsCounter.followTone d l _ .a)) (KeepsCounter.followReceiver h1 h2 l _ .b)) (KeepsCounter.followTone d l _ .b))
    (KeepsCounter.modLane ?_)
  · rfl
  · unfold LaneUnit.startCapture LaneUnit.followScan
    split
    · rfl
    · split <;> rfl

theorem KeepsCounter.wake {d : Counter} (h1 : d ≠ .labelsRefused) (h2 : d ≠ .lost) (l : Lane) (s : State) (w : WakeSource) :
    KeepsCounter d l s (s.wake l w) := by
  simp only [State.wake]
  split
  · exact KeepsCounter.changeLane h1 h2 l s _ _ _
  · exact rfl

/-! ## Labels refused by a change (R51, R165) -/

/-- From `s` to `t` the counter LABELS_REFUSED of lane `l` has counted `n` times in RUNNING and STOPPING, unless it is inhibited. -/
def CountsRefused (n : Nat) (l : Lane) (s t : State) : Prop :=
  (t.lane l).counters[Counter.labelsRefused.index] = (s.lane l).counters[Counter.labelsRefused.index] +
    if (s.run.device = .running ∨ s.run.device = .stopping) ∧ (s.lane l).settings.inhibit.getLsbD 1 = false then BitVec.ofNat 16 n else 0

theorem KeepsCounter.refused {l : Lane} {s t : State} (h : KeepsCounter .labelsRefused l s t) : CountsRefused 0 l s t := by
  unfold CountsRefused
  rw [h]
  simp

theorem CountsRefused.trans {n k : Nat} {l : Lane} {s t u : State} (f : LaneFrame (only l) s t) (a : CountsRefused n l s t)
    (b : CountsRefused k l t u) : CountsRefused (n + k) l s u := by
  unfold CountsRefused at *
  rw [b, a, f.device, (f.settings l).2.1]
  split
  · rw [BitVec.ofNat_add, BitVec.add_assoc]
  · simp

theorem CountsRefused.count (l : Lane) (s : State) (h : s.run.device = .running ∨ s.run.device = .stopping) :
    CountsRefused 1 l s (s.count l .labelsRefused) := by
  unfold CountsRefused
  rw [count_counter]
  by_cases hi : (s.lane l).settings.inhibit.getLsbD 1 = false
  · rw [if_pos ⟨rfl, rfl, hi⟩, if_pos ⟨h, hi⟩]; rfl
  · rw [if_neg fun x => hi x.2.2, if_neg fun x => hi x.2]

theorem CountsRefused.cutFrame (l : Lane) (s : State) (p : Port) :
    CountsRefused (if ((s.lane l).port p).frame = .assembling then 1 else 0) l s (s.cutFrame l p) := by
  simp only [State.cutFrame]
  split
  · next e =>
    have base : LaneFrame (only l) s (s.modPort l p fun q => { q.clearFrame with frame := .discarding }) := by
      exact (LaneStep.modPort fun _ => ⟨by simp [ScanPort.clearFrame], fun _ => ⟨rfl, rfl, rfl, rfl⟩⟩).toLaneFrame
    have quiet := (KeepsCounter.modPort .labelsRefused l s p fun q => { q.clearFrame with frame := .discarding }).refused
    split
    · next hd =>
      have o := (LaneStep.offer (l := l) (s.modPort l p fun q => { q.clearFrame with frame := .discarding })
        (.labelRefused p (.cut ((s.lane l).port p).text.length))).toLaneFrame
      have q2 := quiet.trans base (KeepsCounter.offer (by decide) l (s.modPort l p fun q => { q.clearFrame with frame := .discarding })
        (.labelRefused p (.cut ((s.lane l).port p).text.length))).refused
      exact q2.trans (base.trans o) (CountsRefused.count l _ (Or.inl (by rw [o.device]; exact hd)))
    · next hd => exact quiet.trans base (CountsRefused.count l _ (Or.inr hd))
    · next h1 h2 =>
      unfold CountsRefused at *
      rw [quiet]
      rw [if_neg fun x => x.1.elim h1 h2, if_neg fun x => x.1.elim h1 h2]
  · exact (show KeepsCounter .labelsRefused l s s from rfl).refused

/-- A receiver follows its lane: the port is among those cut. -/
def LaneUnit.cutsPort (u : LaneUnit) (p : Port) : Bool :=
  (u.port p).on && !u.receiverOn p && decide ((u.port p).frame = .assembling)

theorem CountsRefused.followReceiver (l : Lane) (s : State) (p : Port) :
    CountsRefused (if (s.lane l).cutsPort p then 1 else 0) l s (s.followReceiver l p) := by
  simp only [State.followReceiver]
  by_cases h : (s.lane l).receiverOn p = ((s.lane l).port p).on
  · have e : (s.lane l).cutsPort p = false := by simp [LaneUnit.cutsPort, h]
    rw [if_pos h, if_neg (by rw [e]; decide)]
    exact (show KeepsCounter .labelsRefused l s s from rfl).refused
  · rw [if_neg h]
    by_cases h2 : (s.lane l).receiverOn p = true
    · have e : (s.lane l).cutsPort p = false := by simp [LaneUnit.cutsPort, h2]
      rw [if_pos h2, if_neg (by rw [e]; decide)]
      exact (KeepsCounter.modPort _ l s p _).refused
    · rw [if_neg h2]
      have h3 : (s.lane l).receiverOn p = false := by simpa using h2
      have h4 : ((s.lane l).port p).on = true := by
        rw [h3] at h
        simpa using h
      have := (CountsRefused.cutFrame l s p).trans (LaneStep.cutFrame l s p).toLaneFrame
        (KeepsCounter.modPort .labelsRefused l (s.cutFrame l p) p ScanPort.turnOff).refused
      have e : (if (s.lane l).cutsPort p then 1 else 0) = (if ((s.lane l).port p).frame = .assembling then 1 else 0) + 0 := by
        simp [LaneUnit.cutsPort, h3, h4]
      rw [e]
      exact this

theorem cutsPort_booked {u v : LaneUnit} (h : Booked u v) (p : Port) : v.cutsPort p = u.cutsPort p := by
  simp only [LaneUnit.cutsPort, receiverOn_booked h, port_booked h]

theorem cutPorts_eq (u : LaneUnit) (new : LaneState) :
    u.cutPorts new = (if (u.entering new).cutsPort .a then [.a] else []) ++ (if (u.entering new).cutsPort .b then [.b] else []) := by
  have h : ∀ p, ((u.port p).on && !{ u with laneState := new }.receiverOn p && decide ((u.port p).frame = .assembling)) =
      (u.entering new).cutsPort p := by intro p; cases p <;> rfl
  simp only [LaneUnit.cutPorts, h, List.filter_cons, List.filter_nil]
  split <;> split <;> rfl

/-- The parts of a change of lane state: the lane as it enters, its record, and each port in turn. -/
theorem changeLane_parts (s : State) (l : Lane) (new : LaneState) (cause : StateCause) :
    let a := (s.modLane l fun u => u.entering new).offer l (.laneState new cause)
    let b := (a.followReceiver l .a).followTone l .a
    Booked ((s.lane l).entering new) (a.lane l) ∧ (b.lane l).cutsPort .b = ((s.lane l).entering new).cutsPort .b ∧
      (b.lane l).port .b = ((s.lane l).entering new).port .b := by
  have h0 : Booked ((s.lane l).entering new)
      (((s.modLane l fun u => u.entering new).offer l (.laneState new cause)).lane l) := by
    have := booked_offer (s.modLane l fun u => u.entering new) l l (.laneState new cause)
    rwa [lane_modLane_same] at this
  have h1 := booked_follow h0 .a
  exact ⟨h0, (cutsPort_booked h1 .b).trans rfl, (port_booked h1 .b).trans rfl⟩

/-- The records of a change of lane state (R2, R50, R51). -/
theorem Offers.changeLane (l : Lane) (s : State) (new : LaneState) (cause : StateCause) (capture : Bool) :
    Offers l s (s.changeLane l new cause capture) ((s.lane l).changeRecords new cause) := by
  obtain ⟨h0, h1, h2⟩ := changeLane_parts s l new cause
  rw [changeLane_eq]
  generalize ha : (s.modLane l fun u => u.entering new).offer l (.laneState new cause) = a at *
  have step0 : Offers l s a [.laneState new cause] := by
    rw [← ha]
    exact (Offers.modLane (s := s) (l := l) (m := l) (f := fun u => u.entering new) rfl rfl).trans (Offers.offer l _ _)
  have follow : ∀ (p : Port) (q : State), (q.lane l).cutsPort p = ((s.lane l).entering new).cutsPort p →
      (q.lane l).port p = ((s.lane l).entering new).port p → Offers l q ((q.followReceiver l p).followTone l p)
        ((if ((s.lane l).entering new).cutsPort p then [p] else []).map fun p =>
          .labelRefused p (.cut ((s.lane l).port p).text.length)) := by
    intro p q hc hp
    have hp' : (q.lane l).port p = (s.lane l).port p := hp.trans (by cases p <;> rfl)
    have := (Offers.followReceiver l q p).trans (Offers.followTone l _ p)
    rw [List.append_nil] at this
    have hif : (((q.lane l).port p).on = true ∧ (q.lane l).receiverOn p = false ∧ ((q.lane l).port p).frame = .assembling) ↔
        ((s.lane l).entering new).cutsPort p = true := by
      rw [← hc]
      simp [LaneUnit.cutsPort, and_assoc]
    rw [if_congr hif rfl rfl, hp'] at this
    split at this <;> next h => simpa [h] using this
  have fa := follow .a a (cutsPort_booked h0 .a) (port_booked h0 .a)
  have fb := follow .b _ h1 h2
  have last : ∀ q : State, Offers l q (q.modLane l fun u => if capture then u.startCapture else u.followScan) [] := by
    intro q
    refine Offers.modLane ?_ ?_ <;> unfold LaneUnit.startCapture LaneUnit.followScan <;> split
    · rfl
    · split <;> rfl
    · rfl
    · split <;> rfl
  have := ((step0.trans fa).trans fb).trans (last _)
  rw [List.append_nil, List.append_assoc, ← List.map_append, ← cutPorts_eq] at this
  exact this

theorem CountsRefused.changeLane (l : Lane) (s : State) (new : LaneState) (cause : StateCause) (capture : Bool) :
    CountsRefused ((s.lane l).cutPorts new).length l s (s.changeLane l new cause capture) := by
  obtain ⟨h0, h1, -⟩ := changeLane_parts s l new cause
  rw [changeLane_eq]
  have f0 : LaneFrame (only l) s (s.modLane l fun u => u.entering new) :=
    (LaneStep.modLane (SameSettings.refl _) fun _ h => h).toLaneFrame
  have k0 : KeepsCounter .labelsRefused l s (s.modLane l fun u => u.entering new) := KeepsCounter.modLane rfl
  have f1 := f0.trans (LaneStep.offer (l := l) (s.modLane l fun u => u.entering new) (.laneState new cause)).toLaneFrame
  have k1 := k0.trans (KeepsCounter.offer (by decide) l (s.modLane l fun u => u.entering new) (.laneState new cause))
  generalize ha : (s.modLane l fun u => u.entering new).offer l (.laneState new cause) = a at *
  have f2 := f1.trans (LaneStep.followReceiver l a .a).toLaneFrame
  have c2 := k1.refused.trans f1 (CountsRefused.followReceiver l a .a)
  have f3 := f2.trans (LaneStep.followTone l (a.followReceiver l .a) .a).toLaneFrame
  have c3 := c2.trans f2 (KeepsCounter.followTone .labelsRefused l (a.followReceiver l .a) .a).refused
  have f4 := f3.trans (LaneStep.followReceiver l ((a.followReceiver l .a).followTone l .a) .b).toLaneFrame
  have c4 := c3.trans f3 (CountsRefused.followReceiver l ((a.followReceiver l .a).followTone l .a) .b)
  have f5 := f4.trans (LaneStep.followTone l (((a.followReceiver l .a).followTone l .a).followReceiver l .b) .b).toLaneFrame
  have c5 := c4.trans f4 (KeepsCounter.followTone .labelsRefused l (((a.followReceiver l .a).followTone l .a).followReceiver l .b) .b).refused
  have last : ∀ q : State, KeepsCounter .labelsRefused l q (q.modLane l fun u => if capture then u.startCapture else u.followScan) := by
    intro q
    refine KeepsCounter.modLane ?_
    unfold LaneUnit.startCapture LaneUnit.followScan
    split
    · rfl
    · split <;> rfl
  have c6 := c5.trans f5 (last _).refused
  have ea : (a.lane l).cutsPort .a = ((s.lane l).entering new).cutsPort .a := cutsPort_booked h0 .a
  have len : ((s.lane l).cutPorts new).length =
      0 + (if (a.lane l).cutsPort .a then 1 else 0) + 0 +
        (if (((a.followReceiver l .a).followTone l .a).lane l).cutsPort .b then 1 else 0) + 0 + 0 := by
    rw [cutPorts_eq, ea, h1]
    split <;> split <;> rfl
  rw [len]
  exact c6

/-- A change of lane state (R2, R4, R42, R51, R55). -/
theorem laneChange_spec (s : State) (l : Lane) (new : LaneState) (cause : StateCause) (capture : Bool) :
    LaneChange s (s.changeLane l new cause capture) l new := by
  have hb := booked_changeLane s l new cause capture
  obtain ⟨f1, f2, f3, -⟩ := changed_fields (s.lane l) new capture
  have hport : ∀ p, (((s.changeLane l new cause capture).lane l).port p) =
      ((s.lane l).entering new).toned (((s.lane l).entering new).followed p) := fun p =>
    (port_booked hb p).trans (changed_port _ _ _ p)
  have hon : ∀ p, ((s.lane l).entering new).receiverOn p = { s.lane l with laneState := new }.receiverOn p := by
    intro p; cases p <;> rfl
  refine ⟨by rw [hb.1]; exact f1, by rw [hb.1]; exact f2, hb.2 f3, fun p => ?_, fun p h1 h2 => ?_, fun h p => ?_,
    CountsRefused.changeLane l s new cause capture⟩
  · rw [hport, toned_on, followed_on, hon]
  · rw [hport, toned_on, followed_on] at h2
    rw [hport]
    obtain ⟨a, b, c⟩ := toned_frame ((s.lane l).entering new) (((s.lane l).entering new).followed p)
    obtain ⟨x, y, z⟩ := followed_off (u := (s.lane l).entering new) (by cases p <;> exact h1) h2
    exact ⟨a.trans x, b.trans y, c.trans z⟩
  · rw [hport]
    simp only [LaneUnit.toned]
    rcases h with h | h <;> simp [LaneUnit.entering, h, ScanPort.stopTone]

/-- What a wake source leaves in its lane (R7). -/
theorem booked_wake (s : State) (l : Lane) (w : WakeSource) :
    Booked (if (s.lane l).laneState = .doze ∧ (s.lane l).wakesOn w = true ∧ s.inRun = true then (s.lane l).changed .active false
      else s.lane l) ((s.wake l w).lane l) := by
  simp only [State.wake]
  split
  · exact booked_changeLane s l _ _ _
  · exact Booked.refl _

theorem inRun_iff (s : State) : s.inRun = true ↔ s.run.device = .running ∨ s.run.device = .stopping := by
  simp [State.inRun]

/-! ## A wake source (R7) -/

theorem wakes_iff (s : State) (l : Lane) (w : WakeSource) :
    s.wakes l w = true ↔ (s.lane l).laneState = .doze ∧ (s.lane l).wakesOn w = true ∧ s.inRun = true := by
  rw [inRun_iff]
  simp [State.wakes, LaneUnit.wakesOn]

theorem wake_eq (s : State) (l : Lane) (w : WakeSource) :
    s.wake l w = if s.wakes l w then s.changeLane l .active (.wake w) false else s := by
  simp only [State.wake]
  exact if_congr (wakes_iff s l w).symm rfl rfl

theorem LaneStays.refl (s : State) (l : Lane) : LaneStays s s l := ⟨rfl, rfl, rfl⟩

/-- The records of a wake source (R7). -/
theorem Offers.wake (l : Lane) (s : State) (w : WakeSource) : Offers l s (s.wake l w) (s.wakeRecords l w) := by
  rw [wake_eq, State.wakeRecords]
  split
  · exact Offers.changeLane l s _ _ _
  · exact Offers.refl l s

/-- What a wake source leaves in its lane (R7). -/
theorem wokenBy_wake (s : State) (l : Lane) (w : WakeSource) : WokenBy s (s.wake l w) l w := by
  rw [wake_eq, WokenBy]
  split
  · refine ⟨laneChange_spec s l _ _ _, ?_⟩
    rw [(booked_changeLane s l .active (.wake w) false).1]
    exact (changed_kb (s.lane l) .active false)
  · exact LaneStays.refl s l

/-- A wake source moves no other part of its lane. -/
theorem wake_fields (s : State) (l : Lane) (w : WakeSource) :
    ((s.wake l w).lane l).drawer = (s.lane l).drawer ∧ ((s.wake l w).lane l).keylock = (s.lane l).keylock ∧
    ((s.wake l w).lane l).acceptor = (s.lane l).acceptor ∧
    ((s.lane l).rewrite = true → ((s.wake l w).lane l).rewrite = true) := by
  have hb := booked_wake s l w
  by_cases h : (s.lane l).laneState = .doze ∧ (s.lane l).wakesOn w = true ∧ s.inRun = true
  · rw [if_pos h] at hb
    obtain ⟨f1, f2, f3, f4, f5, f6, -⟩ := changed_fields (s.lane l) .active false
    refine ⟨?_, ?_, ?_, fun _ => hb.2 f3⟩
    all_goals rw [hb.1]; assumption
  · rw [if_neg h] at hb
    refine ⟨?_, ?_, ?_, hb.2⟩
    all_goals rw [hb.1]

/-- `WokenBy` rests, of the lane before, on what a change of lane state reads. -/
theorem WokenBy.before {s a t : State} {l : Lane} {w : WakeSource} (h : WokenBy a t l w) (hd : a.run.device = s.run.device)
    (hs : (a.lane l).laneState = (s.lane l).laneState) (hc : (a.lane l).configured = (s.lane l).configured)
    (he : (a.lane l).settings = (s.lane l).settings) (hi : (a.lane l).idle = (s.lane l).idle) (hk : (a.lane l).kb = (s.lane l).kb)
    (hp : ∀ p, (a.lane l).port p = (s.lane l).port p)
    (hn : (a.lane l).counters[1] = (s.lane l).counters[1]) : WokenBy s t l w := by
  have hw : a.wakes l w = s.wakes l w := by simp only [State.wakes, hd, hs, he]
  have hr : ∀ p, { a.lane l with laneState := .active }.receiverOn p = { s.lane l with laneState := .active }.receiverOn p := by
    intro p; cases p <;> simp only [LaneUnit.receiverOn, LaneUnit.portSettings, hc, he]
  have hcut : (a.lane l).cutPorts .active = (s.lane l).cutPorts .active := by simp only [LaneUnit.cutPorts, hr, hp]
  have hb : (a.lane l).kbIn .active = (s.lane l).kbIn .active := by
    simp only [LaneUnit.kbIn, LaneUnit.scanMode, hc, he, hk]
  unfold WokenBy at *
  rw [hw, hb] at h
  split
  · next e =>
    rw [if_pos e] at h
    obtain ⟨⟨h1, h2, h3, h4, h5, h6, h7⟩, h8⟩ := h
    rw [he] at h2
    rw [hn, hd, he, hcut] at h7
    exact ⟨⟨h1, h2, h3, fun p => (h4 p).trans (hr p), fun p x => h5 p (by rw [hp]; exact x), h6, h7⟩, h8⟩
  · next e =>
    rw [if_neg e] at h
    exact ⟨h.1.trans hs, h.2.1.trans hi, h.2.2.trans hk⟩

/-- `WokenBy` rests, of the lane after, on what records and counts of others leave. -/
theorem WokenBy.after {s a t : State} {l : Lane} {w : WakeSource} (h : WokenBy s a l w) (hb : Booked (a.lane l) (t.lane l))
    (hn : (t.lane l).counters[1] = (a.lane l).counters[1]) : WokenBy s t l w := by
  have hp : ∀ p, (t.lane l).port p = (a.lane l).port p := port_booked hb
  have h1 : (t.lane l).laneState = (a.lane l).laneState := by rw [hb.1]
  have h2 : (t.lane l).idle = (a.lane l).idle := by rw [hb.1]
  have h3 : (t.lane l).kb = (a.lane l).kb := by rw [hb.1]
  unfold WokenBy at *
  split
  · next e =>
    rw [if_pos e] at h
    obtain ⟨⟨a1, a2, a3, a4, a5, a6, a7⟩, a8⟩ := h
    exact ⟨⟨h1.trans a1, h2.trans a2, hb.2 a3, fun p => by rw [hp]; exact a4 p, fun p x => by rw [hp]; exact a5 p x,
      fun x p => by rw [hp]; exact a6 x p, by rw [hn]; exact a7⟩, h3.trans a8⟩
  · next e =>
    rw [if_neg e] at h
    exact ⟨h1.trans h.1, h2.trans h.2.1, h3.trans h.2.2⟩

/-- The records of a wake rest on what a change of lane state reads. -/
theorem wakeRecords_congr {s a : State} {l : Lane} (w : WakeSource) (hd : a.run.device = s.run.device)
    (hs : (a.lane l).laneState = (s.lane l).laneState) (hc : (a.lane l).configured = (s.lane l).configured)
    (he : (a.lane l).settings = (s.lane l).settings) (hp : ∀ p, (a.lane l).port p = (s.lane l).port p) :
    a.wakeRecords l w = s.wakeRecords l w := by
  have hw : a.wakes l w = s.wakes l w := by simp only [State.wakes, hd, hs, he]
  have hr : ∀ p, { a.lane l with laneState := .active }.receiverOn p = { s.lane l with laneState := .active }.receiverOn p := by
    intro p; cases p <;> simp only [LaneUnit.receiverOn, LaneUnit.portSettings, hc, he]
  simp only [State.wakeRecords, hw, LaneUnit.changeRecords, LaneUnit.cutPorts, hr, hp]

/-- Everything a drawer event does (R79, R98). -/
theorem drawerEvent_spec (s : State) (l : Lane) (f : Drawer → Drawer) (cause : DrawerCause) (value : Word32)
    (hk : (s.lane l).drawer.ok → (f (s.lane l).drawer).ok) :
    let t := s.drawerEvent l f cause value
    let stays := (f (s.lane l).drawer).cond = (s.lane l).drawer.cond
    (t.lane l).drawer = f (s.lane l).drawer ∧ (t.lane l).rewrite = true ∧ (t.lane l).keylock = (s.lane l).keylock ∧
    (if stays then LaneStays s t l else WokenBy s t l .drawer) ∧
    (∀ d : Counter, d ≠ .labelsRefused → d ≠ .lost → KeepsCounter d l s t) ∧
    Offers l s t ((if stays then [] else s.wakeRecords l .drawer) ++
      [(f (s.lane l).drawer).record (s.lane l).drawer.cond cause value]) ∧
    LaneFrame (only l) s t := by
  obtain ⟨a, ha⟩ : ∃ a, a = (s.modDrawer l f).laneRewrite l := ⟨_, rfl⟩
  have hlane : a.lane l = { s.lane l with drawer := f (s.lane l).drawer, rewrite := true } := by
    rw [ha, State.laneRewrite, State.modDrawer, lane_modLane_same, lane_modLane_same]
  have hport : ∀ p, (a.lane l).port p = (s.lane l).port p := by intro p; rw [hlane]; cases p <;> rfl
  have base : LaneFrame (only l) s a := by
    rw [ha]
    exact ((LaneStep.modDrawer (l := l) (fun h => (hk h))).trans (LaneStep.laneRewrite _)).toLaneFrame
  have quiet : Offers l s a [] := by
    rw [ha]
    exact (Offers.modLane (s := s) (l := l) (m := l) rfl rfl).trans (Offers.modLane rfl rfl)
  have hc : (a.lane l).drawer.cond = (f (s.lane l).drawer).cond := by rw [hlane]
  obtain ⟨b, hb⟩ : ∃ b, b = if (f (s.lane l).drawer).cond = (s.lane l).drawer.cond then a else a.wake l .drawer := ⟨_, rfl⟩
  have he : s.drawerEvent l f cause value = b.offer l ((b.lane l).drawer.record (s.lane l).drawer.cond cause value) := by
    rw [hb, ← hc, ha]; rfl
  obtain ⟨w1, w2, -, w4⟩ := wake_fields a l .drawer
  have kept : ∀ d : Counter, d ≠ .labelsRefused → d ≠ .lost → KeepsCounter d l s b := by
    intro d h1 h2
    have k0 : KeepsCounter d l s a := KeepsCounter.of (by rw [hlane])
    rw [hb]
    split
    · exact k0
    · exact k0.trans (KeepsCounter.wake h1 h2 l a _)
  have bf : LaneFrame (only l) s b := by
    rw [hb]
    split
    · exact base
    · exact base.trans (LaneStep.wake l a _).toLaneFrame
  have bo : Offers l s b (if (f (s.lane l).drawer).cond = (s.lane l).drawer.cond then [] else s.wakeRecords l .drawer) := by
    rw [hb]
    split
    · exact quiet
    · have := quiet.trans (Offers.wake l a .drawer)
      rwa [wakeRecords_congr .drawer base.device (by rw [hlane]) (by rw [hlane]) (by rw [hlane]) hport] at this
  have bl : (b.lane l).drawer = f (s.lane l).drawer ∧ (b.lane l).rewrite = true ∧ (b.lane l).keylock = (s.lane l).keylock ∧
      (if (f (s.lane l).drawer).cond = (s.lane l).drawer.cond then LaneStays s b l else WokenBy s b l .drawer) := by
    rw [hb]
    split
    · unfold LaneStays
      rw [hlane]
      exact ⟨rfl, rfl, rfl, rfl, rfl, rfl⟩
    · refine ⟨w1.trans (by rw [hlane]), w4 (by rw [hlane]), w2.trans (by rw [hlane]), ?_⟩
      exact (wokenBy_wake a l .drawer).before base.device (by rw [hlane]) (by rw [hlane]) (by rw [hlane]) (by rw [hlane])
        (by rw [hlane]) hport (by rw [hlane])
  obtain ⟨b1, b2, b3, b4⟩ := bl
  rw [he, b1]
  have ho := booked_offer b l l ((f (s.lane l).drawer).record (s.lane l).drawer.cond cause value)
  refine ⟨?_, ho.2 b2, ?_, ?_, fun d h1 h2 => (kept d h1 h2).trans (KeepsCounter.offer h2 l b _), bo.trans (Offers.offer l b _),
    bf.trans (LaneStep.offer b _).toLaneFrame⟩
  · rw [ho.1]; exact b1
  · rw [ho.1]; exact b3
  · split
    · next e =>
      rw [if_pos e] at b4
      unfold LaneStays at *
      rw [ho.1]
      exact b4
    · next e =>
      rw [if_neg e] at b4
      exact b4.after ho (KeepsCounter.offer (d := .labelsRefused) (by decide) l b _)

end Sys2Proof.Machine
end

