-- ==== Sys2Proof/Laws/Memory.lean ====
section
/-! SUPPORT. Host memory as the part has written it: reading after writing, what a write leaves, and the canonical form. -/

namespace Sys2Proof.Machine

/-! ## One byte -/

theorem memGet_memSet_same (a : Nat) (b : Byte) : ∀ m, memGet a (memSet a b m) = some b
  | [] => by simp [memSet, memGet]
  | (a', b') :: rest => by
    unfold memSet
    split
    · simp [memGet]
    · split
      · simp [memGet]
      · next h => simp [memGet, h, memGet_memSet_same a b rest]

theorem memGet_memSet_ne {a c : Nat} (b : Byte) (h : c ≠ a) : ∀ m, memGet c (memSet a b m) = memGet c m
  | [] => by simp [memSet, memGet, h]
  | (a', b') :: rest => by
    unfold memSet
    split
    · simp [memGet, h]
    · split
      · next e => subst e; simp [memGet, h]
      · simp only [memGet, memGet_memSet_ne b h rest]

/-- A first address below everything that `m` lists. -/
def memBelow (a : Nat) : List Host.Cell → Prop
  | [] => True
  | (a', _) :: _ => a < a'

theorem memWf_cons (a : Nat) (b : Byte) (m : List Host.Cell) : memWf ((a, b) :: m) = true ↔ memBelow a m ∧ memWf m = true := by
  cases m with
  | nil => simp [memWf, memBelow]
  | cons c rest => simp [memWf, memBelow]

theorem memBelow_memSet {a c : Nat} {b : Byte} (hca : c < a) : ∀ {m}, memBelow c m → memBelow c (memSet a b m)
  | [], _ => hca
  | (a', b') :: rest, h => by
    unfold memSet
    split
    · exact hca
    · split
      · exact hca
      · exact h

theorem memWf_memSet (a : Nat) (b : Byte) : ∀ {m}, memWf m = true → memWf (memSet a b m) = true
  | [], _ => by simp [memSet, memWf]
  | (a', b') :: rest, h => by
    have h' := (memWf_cons a' b' rest).1 h
    unfold memSet
    split
    · next hl => exact (memWf_cons _ _ _).2 ⟨hl, h⟩
    · split
      · next e => subst e; exact (memWf_cons _ _ _).2 h'
      · exact (memWf_cons _ _ _).2 ⟨memBelow_memSet (by omega) h'.1, memWf_memSet a b h'.2⟩

/-! ## Several bytes -/

theorem memWf_memWrite : ∀ (bs : List Byte) (m : List Host.Cell) (a : Nat), memWf m = true → memWf (memWrite m a bs) = true
  | [], _, _, h => h
  | b :: bs, _, a, h => memWf_memWrite bs _ (a + 1) (memWf_memSet a b h)

theorem memGet_memWrite_out : ∀ (bs : List Byte) (m : List Host.Cell) (a c : Nat), ¬(a ≤ c ∧ c < a + bs.length) →
    memGet c (memWrite m a bs) = memGet c m
  | [], _, _, _, _ => rfl
  | b :: bs, m, a, c, h => by
    simp only [List.length_cons] at h
    rw [memWrite, memGet_memWrite_out bs _ (a + 1) c (by omega), memGet_memSet_ne b (by omega)]

theorem memGet_memWrite_in : ∀ (bs : List Byte) (m : List Host.Cell) (a i : Nat) (b : Byte), bs[i]? = some b →
    memGet (a + i) (memWrite m a bs) = some b
  | [], _, _, _, _, h => by simp at h
  | b' :: bs, m, a, 0, b, h => by
    simp only [List.getElem?_cons_zero, Option.some.injEq] at h
    subst h
    rw [memWrite, Nat.add_zero, memGet_memWrite_out bs _ (a + 1) a (by omega), memGet_memSet_same]
  | b' :: bs, m, a, i + 1, b, h => by
    rw [memWrite, show a + (i + 1) = a + 1 + i by omega]
    exact memGet_memWrite_in bs _ (a + 1) i b (by simpa using h)

theorem memWf_memWritePart (lands : Nat → Bool) (a : Nat) : ∀ (bs : List Byte) (m : List Host.Cell) (i : Nat), memWf m = true →
    memWf (memWritePart m a lands i bs) = true
  | [], _, _, h => h
  | b :: bs, m, i, h => by
    refine memWf_memWritePart lands a bs _ (i + 1) ?_
    split
    · exact memWf_memSet _ b h
    · exact h

theorem memGet_memWritePart_out (lands : Nat → Bool) (a c : Nat) : ∀ (bs : List Byte) (m : List Host.Cell) (i : Nat),
    ¬(a + i ≤ c ∧ c < a + i + bs.length) → memGet c (memWritePart m a lands i bs) = memGet c m
  | [], _, _, _ => rfl
  | b :: bs, m, i, h => by
    simp only [List.length_cons] at h
    rw [memWritePart, memGet_memWritePart_out lands a c bs _ (i + 1) (by omega)]
    split
    · exact memGet_memSet_ne b (by omega) m
    · rfl

/-- A byte of an abandoned write is the new one or the one before. -/
theorem memGet_memWritePart_in (lands : Nat → Bool) (a : Nat) : ∀ (bs : List Byte) (m : List Host.Cell) (i j : Nat) (b : Byte),
    bs[j]? = some b →
      memGet (a + (i + j)) (memWritePart m a lands i bs) = some b ∨
        memGet (a + (i + j)) (memWritePart m a lands i bs) = memGet (a + (i + j)) m
  | [], _, _, _, _, h => by simp at h
  | b' :: bs, m, i, 0, b, h => by
    simp only [List.getElem?_cons_zero, Option.some.injEq] at h
    subst h
    rw [memWritePart, memGet_memWritePart_out lands a _ bs _ (i + 1) (by omega)]
    split
    · exact Or.inl (memGet_memSet_same _ _ _)
    · exact Or.inr rfl
  | b' :: bs, m, i, j + 1, b, h => by
    rw [memWritePart]
    have := memGet_memWritePart_in lands a bs (if lands i then memSet (a + i) b' m else m) (i + 1) j b (by simpa using h)
    rw [show i + (j + 1) = i + 1 + j by omega]
    refine this.imp id fun e => e.trans ?_
    split
    · exact memGet_memSet_ne b' (by omega) m
    · rfl

/-! ## The operations of the engine -/

theorem complete_memOk {s : State} (h : s.memOk) : s.complete.memOk := by
  unfold State.complete
  split
  · exact h
  · exact memWf_memWrite _ _ _ h

theorem abandon_memOk {s : State} (h : s.memOk) : s.abandon.memOk := by
  unfold State.abandon
  split
  · exact h
  · exact memWf_memWritePart _ _ _ _ _ h

/-- No reset and no start lists a byte: the memory of `State.reset` stands in canonical form. -/
theorem reset_memOk : State.reset.memOk := rfl

/-- The granted request completes: its bytes are stored, and nothing else changes but the grant. -/
theorem complete_eq {s : State} {g : Grant} (h : s.dma.granted = some g) :
    s.complete = { s with hostMem := memWrite s.hostMem g.address g.req.data, dma.granted := none } := by
  simp [State.complete, h]

/-- The granted request is abandoned: some of its bytes are stored, and nothing else changes but the grant. -/
theorem abandon_eq {s : State} {g : Grant} (h : s.dma.granted = some g) :
    s.abandon = { s with hostMem := memWritePart s.hostMem g.address (Config.abortLands s.freeUsed) 0 g.req.data,
                         dma.granted := none, freeUsed := s.freeUsed + 1 } := by
  simp [State.abandon, h]

end Sys2Proof.Machine
end

