-- ==== Sys2Proof/Laws/Silent.lean ====
section
/-! SUPPORT. What the lanes do outside RUNNING and STOPPING: no record is produced, no lane wakes, no cut is counted, so every change
stays in the lane itself (R3, R51, R100). -/

namespace Sys2Proof.Machine

@[simp] theorem setLane_setLane (s : State) (l : Lane) (u v : LaneUnit) : (s.setLane l u).setLane l v = s.setLane l v := by
  simp [State.setLane]

@[simp] theorem modLane_setLane (s : State) (l : Lane) (u : LaneUnit) (f : LaneUnit → LaneUnit) :
    (s.setLane l u).modLane l f = s.setLane l (f u) := by
  simp [State.modLane]

@[simp] theorem setLane_inRun (s : State) (l : Lane) (u : LaneUnit) : (s.setLane l u).inRun = s.inRun := rfl

theorem produced_silent {s : State} (h : s.inRun = false) (cls : Nat) : produced s.run.device cls = false := by
  cases e : produced s.run.device cls
  · rfl
  · rw [produced_inRun e] at h; cases h

theorem offer_silent {s : State} (h : s.inRun = false) (l : Lane) (b : RecordBody) : s.offer l b = s := by
  simp [State.offer, produced_silent h]

theorem wake_silent {s : State} (h : s.inRun = false) (l : Lane) (w : WakeSource) : s.wake l w = s := by
  simp [State.wake, h]

theorem drawerEvent_silent {s : State} (h : s.inRun = false) (l : Lane) (f : Drawer → Drawer) (c : DrawerCause) (v : Word32) :
    s.drawerEvent l f c v = s.modLane l fun u => { u with drawer := f u.drawer, rewrite := true } := by
  have e : (s.modDrawer l f).laneRewrite l = s.modLane l fun u => { u with drawer := f u.drawer, rewrite := true } := by
    simp [State.modDrawer, State.laneRewrite, State.modLane]
  have hi : ((s.modDrawer l f).laneRewrite l).inRun = false := h
  simp only [State.drawerEvent]
  split <;> rw [offer_silent] <;> first
    | exact e
    | rw [wake_silent hi]; exact e
    | exact hi
    | (rw [wake_silent hi]; exact hi)

/-- A port under new settings, outside RUNNING and STOPPING (R58). -/
def LaneUnit.reloadedPort (u : LaneUnit) (p : Port) : ScanPort :=
  let q := if u.receiverOn p then (u.port p).cut.turnOn (u.portSettings p) else (u.port p).cut.turnOff
  let q := if (u.portSettings p).enable then q else q.stopTone
  match u.laneState with
  | .active | .doze => q
  | .off | .disabled => q.stopTone

theorem reloadPort_silent {s : State} (h : s.inRun = false) (l : Lane) (p : Port) :
    s.reloadPort l p = s.modLane l fun u => u.modPort p fun _ => u.reloadedPort p := by
  have hs : s = s.setLane l (s.lane l) := (setLane_lane s l).symm
  generalize s.lane l = u at hs
  simp only [State.reloadPort, cutFrame_silent h]
  rw [hs]
  clear hs
  simp only [State.modPort, modLane_setLane, lane_setLane_same, State.followTone, LaneUnit.reloadedPort]
  by_cases he : (u.portSettings p).enable = true <;> by_cases hr : u.receiverOn p = true <;> cases hl : u.laneState <;>
    cases p <;> simp_all only [LaneUnit.receiverOn, LaneUnit.portSettings] <;> simp_all [LaneUnit.modPort, LaneUnit.port]

end Sys2Proof.Machine
end

