-- ==== Sys2Proof/Laws/Load.lean ====
section
/-! SUPPORT. The load of LOADING: the settings unit's next request, and what the delivery makes of every lane (R155, R1, R95). -/

namespace Sys2Proof.Machine

/-! ## The next request of the load -/

theorem pumpRecord_unit (s : State) : s.pumpRecord.unit = s.unit := by
  unfold State.pumpRecord State.beginClose
  split
  · split
    · rfl
    · split <;> simp
  · rfl

theorem busy_request_ne (s : State) {v w : Requester} (r : Request) (h : v ≠ w) :
    (s.request w r).dma.busy v = s.dma.busy v := by
  cases v <;> cases w <;> first | exact absurd rfl h | rfl

theorem pumpRecord_busy (s : State) {v : Requester} (h : v ≠ .journal) : s.pumpRecord.dma.busy v = s.dma.busy v := by
  unfold State.pumpRecord State.beginClose
  split
  · split
    · rfl
    · split <;> rw [busy_request_ne _ _ h]
  · rfl

theorem pumpDrain_not {s : State} (h : s.drained = false) : s.pumpDrain = s := by
  simp [State.pumpDrain, h]

/-- At the end of an event of LOADING a free settings unit makes the load's next request (R155). -/
theorem settle_load {s : State} (hd : s.run.device = .loading) (hb : s.dma.busy .settings = false) {r : Request}
    (h : s.unit.load = .hostPart ∧ r = readRequest .hostPartRead 0 64 ∨
      ∃ l, s.unit.load = .laneRecord l ∧ r = readRequest (.laneSettingsRead l) (laneRecordOffset l) 128) :
    s.settle.asks .settings r := by
  refine asks_grant ?_
  have hr := (QuietFrame.pumpRecord s).run
  rw [pumpDrain_not (not_drained (by rw [hr, hd]; decide)), State.pumpSettings, pumpRecord_busy s (by decide), hb, hr, hd]
  simp only [State.pumpLoad, pumpRecord_unit]
  rcases h with ⟨h, rfl⟩ | ⟨l, h, rfl⟩ <;> rw [h] <;> exact asks_request _ _ _

theorem complete_busy {s : State} {g : Grant} (h : s.dma.granted = some g) (hw : s.dma.waitS = none) :
    s.complete.dma.busy .settings = false := by
  simp [complete_eq h, Arbiter.busy, Arbiter.holds, hw]

/-! ## The delivery -/

/-- The drawer controller under new settings, outside RUNNING and STOPPING (R77, R94, R95). -/
theorem reloadDrawer_silent {s : State} (h : s.inRun = false) (l : Lane) :
    ∃ u, s.reloadDrawer l = s.setLane l u ∧ u = { s.lane l with drawer := u.drawer, rewrite := u.rewrite } ∧
      ((s.lane l).rewrite = true → u.rewrite = true) ∧ u.drawer.running = (s.lane l).drawerRuns ∧
      u.drawer.latch = (s.lane l).drawer.latch ∧ u.drawer.history = (s.lane l).drawer.history := by
  have keep : ∀ (d : Drawer) (c : DrawerSettings), (d.newInterval c).running = d.running ∧ (d.newInterval c).latch = d.latch ∧
      (d.newInterval c).history = d.history := by
    intro d c
    unfold Drawer.newInterval Drawer.compareRaw
    repeat' split
    all_goals exact ⟨rfl, rfl, rfl⟩
  have leave : ∀ (d : Drawer) (c : DrawerSettings) (n : Word32), (d.leaveAbsent c n).running = d.running ∧
      (d.leaveAbsent c n).latch = d.latch ∧ (d.leaveAbsent c n).history = d.history := by
    intro d c n
    unfold Drawer.leaveAbsent Drawer.openAt
    split <;> exact ⟨rfl, rfl, rfl⟩
  have start : ∀ (d : Drawer) (c : DrawerSettings) (n : Word32), (d.start c n).running = true ∧
      (d.start c n).latch = d.latch ∧ (d.start c n).history = d.history := by
    intro d c n
    simp only [Drawer.start]
    split <;> exact ⟨rfl, rfl, rfl⟩
  simp only [State.reloadDrawer]
  split
  · next hr =>
    split
    · next hn =>
      split
      · rw [drawerEvent_silent (by exact h)]
        refine ⟨{ s.lane l with drawer := (((s.lane l).drawer.newInterval (s.lane l).settings.drawer).leaveAbsent
          (s.lane l).settings.drawer s.run.clock), rewrite := true }, ?_, rfl, fun _ => rfl, ?_, ?_, ?_⟩
        · simp only [State.modDrawer, State.modLane, setLane_setLane, lane_setLane_same]
        · simp only
          rw [(leave _ _ _).1, (keep _ _).1, hn, hr]
        · simp only
          rw [(leave _ _ _).2.1, (keep _ _).2.1]
        · simp only
          rw [(leave _ _ _).2.2, (keep _ _).2.2]
      · refine ⟨_, rfl, rfl, id, ?_, ?_, ?_⟩
        · simp only
          rw [(keep _ _).1, hn, hr]
        · exact (keep _ _).2.1
        · exact (keep _ _).2.2
    · rw [drawerEvent_silent h]
      exact ⟨_, rfl, rfl, fun _ => rfl, by rw [hr]; exact (start _ _ _).1, (start _ _ _).2.1, (start _ _ _).2.2⟩
  · next hr =>
    have hr : (s.lane l).drawerRuns = false := by simpa using hr
    split
    · rw [drawerEvent_silent h]
      exact ⟨_, rfl, rfl, fun _ => rfl, hr.symm, rfl, rfl⟩
    · next hn =>
      exact ⟨s.lane l, (setLane_lane s l).symm, rfl, id, by rw [hr]; simpa using hn, rfl, rfl⟩

/-- A lane configured at LOADING (R1, R12, R54, R58, R74, R95, R115, R161). -/
structure Configured (u v : LaneUnit) (data : List Byte) (store : Option DrawerSettings) : Prop where
  configured : v.configured = true
  settings : v.settings = (loadLane data store).1
  clamped : v.clamped = (loadLane data store).2
  held : v.held = store.isSome
  stored : v.store = some (loadLane data store).1.drawer
  rewrite : v.rewrite = true
  laneState : v.laneState = if (loadLane data store).1.enable then .active else .disabled
  idle : v.idle = if (loadLane data store).1.enable then (loadLane data store).1.idlePeriod else none
  orderA : v.portA.orderEnable = true
  orderB : v.portB.orderEnable = true
  seq : v.seq = 0
  acceptor : v.acceptor = .reset
  position : v.keylock.position = u.keylock.position
  running : v.drawer.running = (loadLane data store).1.drawer.enable
  latch : v.drawer.latch = u.drawer.latch
  history : v.drawer.history = u.drawer.history
  counters : v.counters = u.counters ∧ v.noted = u.noted ∧ v.losses = u.losses

theorem followReader_fields (u : LaneUnit) : u.followReader = { u with keylock := u.followReader.keylock } ∧
    u.followReader.keylock.position = u.keylock.position := by
  unfold LaneUnit.followReader LaneUnit.takeReading Keylock.valid Keylock.invalid
  repeat' split
  all_goals exact ⟨rfl, rfl⟩

theorem loadKeyboard_fields (u : LaneUnit) (old : LaneSettings) :
    u.loadKeyboard old = { u with kb := (u.loadKeyboard old).kb } := by
  unfold LaneUnit.loadKeyboard LaneUnit.followScan
  repeat' split
  all_goals rfl

theorem configure_fields (u : LaneUnit) (data : List Byte) (held : Option DrawerSettings) :
    ∃ kb kl, kl.position = u.keylock.position ∧ u.configure data held = { u with
      configured := true
      settings := (loadLane data held).1
      clamped := (loadLane data held).2
      held := held.isSome
      store := some (loadLane data held).1.drawer
      laneState := if (loadLane data held).1.enable then .active else .disabled
      idle := if (loadLane data held).1.enable then (loadLane data held).1.idlePeriod else none
      acceptor := .reset
      seq := 0
      rewrite := true
      kb := kb
      keylock := kl } := by
  simp only [LaneUnit.configure]
  have h1 := fun v : LaneUnit => followReader_fields v
  generalize hv : LaneUnit.loadKeyboard _ _ = v
  rw [loadKeyboard_fields] at hv
  refine ⟨v.kb, v.followReader.keylock, (h1 v).2.trans ?_, (h1 v).1.trans ?_⟩
  · rw [← hv]; rfl
  · rw [← hv]; rfl

theorem configureLane_silent {s : State} (h : s.inRun = false) (l : Lane) (data : List Byte) :
    ∃ u, s.configureLane l data = s.setLane l u ∧ Configured (s.lane l) u data (s.heldDrawer l) := by
  simp only [State.configureLane]
  generalize s.heldDrawer l = held
  rw [show s.modLane l (fun u => u.configure data held) = s.setLane l ((s.lane l).configure data held) from rfl]
  obtain ⟨kb, kl, hk, e⟩ := configure_fields (s.lane l) data held
  generalize (s.lane l).configure data held = v at e
  rw [reloadPort_silent (s := s.setLane l v) h, modLane_setLane]
  generalize hw : v.modPort .a (fun _ => v.reloadedPort .a) = w
  rw [reloadPort_silent (s := s.setLane l w) h, modLane_setLane]
  generalize hx : w.modPort .b (fun _ => w.reloadedPort .b) = x
  simp only [State.modPort, modLane_setLane]
  generalize hy : (x.modPort .a fun q => { q with orderEnable := true }).modPort .b (fun q => { q with orderEnable := true }) = y
  obtain ⟨u, e1, hu, h1, h2, h3, h4⟩ := reloadDrawer_silent (s := s.setLane l y) h l
  refine ⟨u, by rw [e1, setLane_setLane], ?_⟩
  rw [lane_setLane_same] at hu h1 h2 h3 h4
  have ey : y = { v with portA := y.portA, portB := y.portB } ∧ y.portA.orderEnable = true ∧ y.portB.orderEnable = true := by
    subst hy hx hw
    exact ⟨rfl, rfl, rfl⟩
  obtain ⟨ey, ya, yb⟩ := ey
  rw [e] at ey
  refine ⟨?_, ?_, ?_, ?_, ?_, h1 ?_, ?_, ?_, ?_, ?_, ?_, ?_, ?_, h2.trans ?_, h3.trans ?_, h4.trans ?_, ?_⟩
  all_goals first
    | (rw [hu]; exact ya)
    | (rw [hu]; exact yb)
    | (rw [ey]; done)
    | (rw [hu, ey]; done)
    | skip
  · rw [hu, ey]; exact hk
  · rw [ey]; rfl
  · rw [hu, ey]; exact ⟨rfl, rfl, rfl⟩

/-- Each lane in turn, by a relation between what it was and what it becomes, while everything but the lanes stays. -/
theorem forLanes_silent (f : Lane → State → State) (rel : Lane → LaneUnit → LaneUnit → Prop) (s : State)
    (h : ∀ l t, t = { s with lanes := t.lanes } → ∃ u, f l t = t.setLane l u ∧ rel l (t.lane l) u) :
    s.forLanes f = { s with lanes := (s.forLanes f).lanes } ∧ ∀ m, rel m (s.lane m) ((s.forLanes f).lane m) := by
  have key : ∀ (ls : List Lane) (t : State), t = { s with lanes := t.lanes } → ls.Nodup →
      ls.foldl (fun s l => f l s) t = { s with lanes := (ls.foldl (fun s l => f l s) t).lanes } ∧
        ∀ m, if m ∈ ls then rel m (t.lane m) ((ls.foldl (fun s l => f l s) t).lane m)
          else (ls.foldl (fun s l => f l s) t).lane m = t.lane m := by
    intro ls
    induction ls with
    | nil => intro t ht _; exact ⟨ht, fun m => by simp⟩
    | cons l ls ih =>
      intro t ht hn
      obtain ⟨u, hu, hr⟩ := h l t ht
      obtain ⟨a, b⟩ := ih (f l t) (by rw [hu, ht]; rfl) (List.nodup_cons.1 hn).2
      refine ⟨a, fun m => ?_⟩
      have bm := b m
      rw [List.foldl_cons]
      have hl := (List.nodup_cons.1 hn).1
      by_cases e : m = l
      · subst e
        simp only [hl, if_false] at bm
        simp only [List.mem_cons, true_or, if_true]
        rw [bm, hu, lane_setLane_same]
        exact hr
      · rw [hu, lane_setLane_ne _ _ e, ← hu] at bm
        simp only [List.mem_cons, e, false_or]
        exact bm
  obtain ⟨a, b⟩ := key allLanes s rfl allLanes_nodup
  refine ⟨a, fun m => ?_⟩
  have := b m
  rw [if_pos (mem_allLanes m)] at this
  exact this

/-- The delivery of LOADING, block by block and lane by lane (R155 step 3). -/
theorem deliver_spec {s : State} (h : s.inRun = false) :
    s.deliver = { s with
      run.enable := s.unit.loadHost.enable
      lanes := s.deliver.lanes
      staging.devSeq := 0
      journal := s.journal.load
      unit := { s.unit with host := s.unit.loadHost, devRewrite := true, load := .status allTargets, loadRecords := [] } } ∧
    ∀ l, match s.unit.loadRecords[l.val]? with
      | some data => Configured (s.lane l) (s.deliver.lane l) data (s.heldDrawer l)
      | none => s.deliver.lane l = (s.lane l).unconfigure := by
  simp only [State.deliver]
  refine forLanes_silent _ (fun l u v => match s.unit.loadRecords[l.val]? with
    | some data => Configured u v data (if s.unit.policyLock then u.store else none)
    | none => v = u.unconfigure) _ ?_
  intro l t ht
  cases e : s.unit.loadRecords[l.val]? with
  | none => exact ⟨_, rfl, rfl⟩
  | some data =>
    have hi : t.inRun = false := by rw [ht]; exact h
    obtain ⟨u, hu, hc⟩ := configureLane_silent hi l data
    refine ⟨u, hu, ?_⟩
    have hp : t.unit.policyLock = s.unit.policyLock := by rw [ht]
    rw [State.heldDrawer, hp] at hc
    exact hc

end Sys2Proof.Machine
end

