-- ==== Sys2Proof/Laws/LoadRead.lean ====
section
/-! SUPPORT. The end of an event keeps `loadOk`: every request is its requester's own, and a lane's settings record is read for LOADING
alone (R155, R167, R168). -/

namespace Sys2Proof.Machine

/-- `loadOk` rests on the engine and on the device state. -/
theorem State.loadOk.congr {s t : State} (h : s.loadOk) (hd : t.dma = s.dma) (hl : s.run.device = .loading → t.run.device = .loading)
    (hf : s.run.device = .faulted → t.run.device = .faulted) : t.loadOk := by
  obtain ⟨h1, h2, h3⟩ := h
  refine ⟨by rw [hd]; exact h1, fun g hg => ?_, fun r l hr hp => ?_⟩
  · rw [hd] at hg
    obtain ⟨a, b, c⟩ := h2 g hg
    exact ⟨a, by rw [hd]; exact b, fun l hp => hl (c l hp)⟩
  · rw [hd] at hr
    exact (h3 r l hr hp).imp hl hf

theorem State.loadOk.same {s t : State} (h : s.loadOk) (hd : t.dma = s.dma) (hr : t.run.device = s.run.device) : t.loadOk :=
  h.congr hd (fun e => hr.trans e) (fun e => hr.trans e)

/-- A request of the requester's own: of the settings unit only beside no other of its, and of a lane's settings only in LOADING. -/
theorem State.loadOk.request {s : State} (h : s.loadOk) {w : Requester} {r : Request} (ho : r.purpose.owner = w)
    (hs : w = .settings → s.dma.holds .settings = false) (hl : ∀ l, r.purpose = .laneSettingsRead l → s.run.device = .loading) :
    (s.request w r).loadOk := by
  obtain ⟨h1, h2, h3⟩ := h
  have hrun : (s.request w r).run = s.run := by cases w <;> rfl
  have own : (s.request w r).dma.waitingOf w = some r := by cases w <;> rfl
  refine ⟨fun v q hq => ?_, fun g hg => ?_, fun q l hq hp => ?_⟩
  · by_cases e : v = w
    · subst e
      rw [own] at hq
      cases hq
      exact ho
    · rw [request_waitingOf_ne s r e] at hq
      exact h1 v q hq
  · rw [request_granted] at hg
    obtain ⟨a, b, c⟩ := h2 g hg
    refine ⟨a, fun hw => ?_, fun l hp => by rw [hrun]; exact c l hp⟩
    by_cases e : w = .settings
    · have := hs e
      simp [Arbiter.holds, hg, hw] at this
    · exact (request_waitingOf_ne s r (Ne.symm e)).trans (b hw)
  · rw [hrun]
    by_cases e : w = .settings
    · subst e
      cases hq
      exact Or.inl (hl l hp)
    · exact h3 q l ((request_waitingOf_ne s r (Ne.symm e)).symm.trans hq) hp

theorem State.loadOk.grant {s : State} (h : s.loadOk) : s.grant.loadOk := by
  unfold State.grant
  split
  · exact h
  · next hg =>
    split
    · exact h
    · next hf =>
      split
      · exact h
      · next w r hn =>
        obtain ⟨h1, -, h3⟩ := h
        have hw := next_some hn
        refine ⟨fun v q hq => ?_, fun g hg => ?_, fun q l hq hp => ?_⟩
        · have hq' : (s.dma.drop w).waitingOf v = some q := by cases v <;> exact hq
          rw [drop_waitingOf] at hq'
          split at hq'
          · cases hq'
          · exact h1 v q hq'
        · cases hg
          refine ⟨h1 w r hw, fun e => ?_, fun l hp => ?_⟩
          · have e' : w = .settings := e
            subst e'
            rfl
          · have own := h1 w r hw
            have hp' : r.purpose = .laneSettingsRead l := hp
            rw [hp'] at own
            have e : w = .settings := own.symm
            subst e
            exact (h3 r l hw hp').resolve_right hf
        · have hq' : (s.dma.drop w).waitingOf .settings = some q := hq
          rw [drop_waitingOf] at hq'
          split at hq'
          · cases hq'
          · exact h3 q l hq' hp

/-- A request of the journal writer's. -/
theorem State.loadOk.journal {s : State} (h : s.loadOk) {r : Request} (ho : r.purpose.owner = .journal) :
    (s.request .journal r).loadOk :=
  h.request ho nofun fun l e => by rw [e] at ho; cases ho

/-- A request of the settings unit's that reads no lane's settings. -/
theorem State.loadOk.settings {s : State} (h : s.loadOk) {r : Request} (ho : r.purpose.owner = .settings)
    (hs : s.dma.holds .settings = false) (hl : ∀ l, r.purpose ≠ .laneSettingsRead l) : (s.request .settings r).loadOk :=
  h.request ho (fun _ => hs) fun l e => absurd e (hl l)

theorem State.loadOk.beginClose {s : State} (h : s.loadOk) (page : OpenPage) (why : CloseReason) : (s.beginClose page why).loadOk := by
  simp only [State.beginClose]
  exact State.loadOk.journal (h.same rfl rfl) rfl

theorem State.loadOk.pumpRecord {s : State} (h : s.loadOk) : s.pumpRecord.loadOk := by
  unfold State.pumpRecord
  split
  · split
    · exact h
    · split
      · exact h.journal rfl
      · exact h.beginClose _ _
  · exact h

theorem State.loadOk.haltJournal {s : State} (h : s.loadOk) (hd : s.run.device = .stopping) : s.haltJournal.loadOk :=
  h.congr (haltJournal_spec s).2.2.2.2.2.2.1 (fun e => by rw [hd] at e; cases e) (fun e => by rw [hd] at e; cases e)

theorem State.loadOk.pumpDrain {s : State} (h : s.loadOk) : s.pumpDrain.loadOk := by
  unfold State.pumpDrain
  split
  · next hd =>
    have hs := drained_stopping hd
    split
    · split
      · exact h
      · split
        · exact State.loadOk.haltJournal (h.same rfl rfl) hs
        · exact h.beginClose _ _
    · exact h.haltJournal hs
    · exact h.haltJournal hs
    · exact h
  · exact h

theorem State.loadOk.rewriteTarget {s : State} (h : s.loadOk) (hs : s.dma.holds .settings = false) (t : StatusTarget) :
    (s.rewriteTarget t).loadOk := by
  cases t with
  | device => exact State.loadOk.settings (h.same rfl rfl) rfl hs nofun
  | lane l => exact State.loadOk.settings (h.same rfl rfl) rfl hs nofun

theorem State.loadOk.pumpLoad {s : State} (h : s.loadOk) (hs : s.dma.holds .settings = false) (hd : s.run.device = .loading) :
    s.pumpLoad.loadOk := by
  unfold State.pumpLoad
  split
  · exact h
  · exact h.settings rfl hs nofun
  · exact h.request rfl (fun _ => hs) fun _ _ => hd
  · unfold State.pumpStatus
    split
    · exact (h.rewriteTarget hs _).same rfl rfl
    · exact h

theorem State.loadOk.pumpRun {s : State} (h : s.loadOk) (hs : s.dma.holds .settings = false) : s.pumpRun.loadOk := by
  unfold State.pumpRun
  split
  · exact h.settings rfl hs nofun
  · exact State.loadOk.settings (h.same rfl rfl) rfl hs nofun
  · unfold State.pumpRewrite
    split
    · exact h.rewriteTarget hs _
    · exact h

theorem State.loadOk.pumpSettings {s : State} (h : s.loadOk) : s.pumpSettings.loadOk := by
  unfold State.pumpSettings
  split
  · exact h
  · next hb =>
    have hs : s.dma.holds .settings = false := by
      cases e : s.dma.holds .settings
      · rfl
      · simp [Arbiter.busy, e] at hb
    split
    · next hd => exact h.pumpLoad hs hd
    · exact h.pumpRun hs
    · exact h.pumpRun hs
    · exact h.pumpRun hs
    · exact h
    · exact h

/-- The end of an event keeps `loadOk`. -/
theorem State.loadOk.settle {s : State} (h : s.loadOk) : s.settle.loadOk :=
  h.pumpRecord.pumpDrain.pumpSettings.grant

/-- A lane event keeps `loadOk`. -/
theorem LaneFrame.loadOk {on : Lane → Prop} {s t : State} (f : LaneFrame on s t) (h : s.loadOk) : t.loadOk := h.same f.dma f.device

/-- The end of an event keeps the sequences of the waiting records (R103). -/
theorem settle_seqOk {s : State} (h : s.seqOk) : s.settle.seqOk := by
  have f := settle_frame s
  exact h.congr (by rw [f.staging]) (by rw [f.staging]) fun m => by rw [f.lanes m]

end Sys2Proof.Machine
end

