-- ==== Sys2Proof/Laws/Operands.lean ====
section
/-! SUPPORT. The loaded settings: what clamping and the defaults selector give, and that every loaded setting lies within its range
(R41, R60, R76, R116, R156 to R158). -/

namespace Sys2Proof.Machine

/-! ## One field -/

theorem clampTo_range {lo hi : Nat} (n : Nat) (h : lo ≤ hi) : lo ≤ clampTo lo hi n ∧ clampTo lo hi n ≤ hi := by
  unfold clampTo
  split
  · omega
  · split <;> omega

theorem clampTo_id {lo hi n : Nat} (h1 : lo ≤ n) (h2 : n ≤ hi) : clampTo lo hi n = n := by
  unfold clampTo
  rw [if_neg (by omega), if_neg (by omega)]

theorem load_range {lo hi : Nat} (n : Nat) (h : lo ≤ hi) :
    lo ≤ (load (clampTo lo hi) n).value ∧ (load (clampTo lo hi) n).value ≤ hi := clampTo_range n h

theorem loadDefault_range {lo hi d : Nat} (sel : Byte) (n : Nat) (h1 : lo ≤ d) (h2 : d ≤ hi) :
    lo ≤ (loadDefault sel d (clampTo lo hi) n).value ∧ (loadDefault sel d (clampTo lo hi) n).value ≤ hi := by
  unfold loadDefault
  split
  · exact clampTo_range n (by omega)
  · exact ⟨h1, h2⟩

/-! ## The ranges -/

theorem loadPort_inRange (rec : List Byte) (sel : Byte) (at_ : Nat) : (loadPort rec sel at_).1.inRange := by
  have r := load_range (lo := 0) (hi := 7) (field1 rec (at_ + 1)) (by decide)
  have m := loadDefault_range (lo := 1) (hi := 48) (d := 4) sel (field1 rec (at_ + 5)) (by decide) (by decide)
  have g := loadDefault_range (lo := 2) (hi := 255) (d := 30) sel (field1 rec (at_ + 6)) (by decide) (by decide)
  have t := loadDefault_range (lo := 20) (hi := 500) (d := 80) sel (field2 rec (at_ + 10)) (by decide) (by decide)
  exact ⟨r.2, m.1, m.2, g.1, g.2, t.1, t.2⟩

theorem loadDrawer_inRange (rec : List Byte) (sel : Byte) : (loadDrawer rec sel).1.inRange := by
  have k := loadDefault_range (lo := 20) (hi := 250) (d := 60) sel (field2 rec 0x48) (by decide) (by decide)
  have c := loadDefault_range (lo := 100) (hi := 3000) (d := 800) sel (field2 rec 0x4A) (by decide) (by decide)
  have a := loadDefault_range (lo := 5) (hi := 600) (d := 60) sel (field2 rec 0x4C) (by decide) (by decide)
  have s := loadDefault_range (lo := 4) (hi := 64) (d := 16) sel (field1 rec 0x50) (by decide) (by decide)
  have p := loadDefault_range (lo := 0) (hi := 60) (d := 5) sel (field1 rec 0x51) (by decide) (by decide)
  have w := loadDefault_range (lo := 1) (hi := 120) (d := 15) sel (field1 rec 0x53) (by decide) (by decide)
  have f : (loadDrawer rec sel).1.alertS ≤ (loadDrawer rec sel).1.faultS ∧ 5 ≤ (loadDrawer rec sel).1.faultS ∧
      (loadDrawer rec sel).1.faultS ≤ 3600 := by
    show (loadDefault sel 60 (clampTo 5 600) (field2 rec 0x4C)).value ≤
        (loadDefault sel 180 (fun n => max (loadDefault sel 60 (clampTo 5 600) (field2 rec 0x4C)).value (clampTo 5 3600 n))
          (field2 rec 0x4E)).value ∧ 5 ≤ (loadDefault sel 180 (fun n =>
          max (loadDefault sel 60 (clampTo 5 600) (field2 rec 0x4C)).value (clampTo 5 3600 n)) (field2 rec 0x4E)).value ∧
        (loadDefault sel 180 (fun n => max (loadDefault sel 60 (clampTo 5 600) (field2 rec 0x4C)).value (clampTo 5 3600 n))
          (field2 rec 0x4E)).value ≤ 3600
    have fr := clampTo_range (lo := 5) (hi := 3600) (field2 rec 0x4E) (by decide)
    unfold loadDefault at a ⊢
    split
    · next e =>
      simp only [e, if_true, load] at a ⊢
      omega
    · exact ⟨by decide, by decide, by decide⟩
  have n : (loadDrawer rec sel).1.lockoutCount = 0 ∨
      2 ≤ (loadDrawer rec sel).1.lockoutCount ∧ (loadDrawer rec sel).1.lockoutCount ≤ 8 := by
    show (loadDefault sel 3 (fun n => if n = 0 then 0 else clampTo 2 8 n) (field1 rec 0x52)).value = 0 ∨
      2 ≤ (loadDefault sel 3 (fun n => if n = 0 then 0 else clampTo 2 8 n) (field1 rec 0x52)).value ∧
        (loadDefault sel 3 (fun n => if n = 0 then 0 else clampTo 2 8 n) (field1 rec 0x52)).value ≤ 8
    unfold loadDefault
    split
    · simp only [load]
      split
      · exact Or.inl rfl
      · exact Or.inr (clampTo_range _ (by decide))
    · exact Or.inr ⟨by decide, by decide⟩
  exact ⟨k.1, k.2, c.1, c.2, a.1, a.2, f.1, f.2.1, f.2.2, s.1, s.2, p.2, n, w.1, w.2⟩

/-- Every effective setting lies within the range stated for it (R158). -/
theorem loadLane_inRange (rec : List Byte) (held : Option DrawerSettings) (h : ∀ d, held = some d → d.inRange) :
    (loadLane rec held).1.inRange := by
  have i := load_range (lo := 0) (hi := 255) (field2 rec 0x04) (by decide)
  have dr := load_range (lo := 1) (hi := 8) (field1 rec 0x06) (by decide)
  have se := load_range (lo := 1) (hi := 16) (field1 rec 0x07) (by decide)
  have pa := loadDefault_range (lo := 1) (hi := 16) (d := 4) (byteAt rec 2) (field1 rec 0x08) (by decide) (by decide)
  have de := loadDefault_range (lo := 1) (hi := 8) (d := 3) (byteAt rec 2) (field1 rec 0x09) (by decide) (by decide)
  have ro := loadDefault_range (lo := 2) (hi := 16) (d := 10) (byteAt rec 2) (field1 rec 0x0A) (by decide) (by decide)
  have ks := loadDefault_range (lo := 50) (hi := 1000) (d := 200) (byteAt rec 2) (field2 rec 0x0C) (by decide) (by decide)
  have ty := loadDefault_range (lo := 100) (hi := 2000) (d := 500) (byteAt rec 2) (field2 rec 0x0E) (by decide) (by decide)
  have re := loadDefault_range (lo := 30) (hi := 500) (d := 100) (byteAt rec 2) (field2 rec 0x10) (by decide) (by decide)
  have wi := load_range (lo := 0) (hi := 2000) (field2 rec 0x12) (by decide)
  have d : (loadLane rec held).1.drawer.inRange := by
    cases held with
    | some d => exact h d rfl
    | none => exact loadDrawer_inRange rec _
  exact ⟨i.2, dr.1, dr.2, se.1, se.2, pa.1, pa.2, de.1, de.2, ro.1, ro.2, ks.1, ks.2, ty.1, ty.2, re.1, re.2, wi.2,
    loadPort_inRange rec _ _, loadPort_inRange rec _ _, d⟩

theorem field1_lt (data : List Byte) (i : Nat) : field1 data i < 256 := (byteAt data i).isLt

/-- Every host setting lies within its range, flow low at least 8 below flow high (R116, R157). -/
theorem loadHost_inRange (data : List Byte) : (loadHost data).inRange := by
  have la := load_range (lo := 1) (hi := 8) (field1 data 0x02) (by decide)
  have pg := load_range (lo := 0) (hi := 3) (field1 data 0x03) (by decide)
  have no := load_range (lo := 1) (hi := 16) (field1 data 0x04) (by decide)
  have ur := loadDefault_range (lo := 1) (hi := 4) (d := 3) (byteAt data 1) (field1 data 0x05) (by decide) (by decide)
  have hi := loadDefault_range (lo := 16) (hi := 80) (d := 64) (byteAt data 1) (field1 data 0x06) (by decide) (by decide)
  have li := loadDefault_range (lo := 0) (hi := 1000) (d := 20) (byteAt data 1) (field2 data 0x08) (by decide) (by decide)
  have lo : (loadHost data).flowLow + 8 ≤ (loadHost data).flowHigh := by
    show (loadDefault (byteAt data 1) 32 (clampTo 0 ((loadDefault (byteAt data 1) 64 (clampTo 16 80) (field1 data 0x06)).value - 8))
      (field1 data 0x07)).value + 8 ≤ (loadDefault (byteAt data 1) 64 (clampTo 16 80) (field1 data 0x06)).value
    unfold loadDefault at hi ⊢
    split
    · next e =>
      simp only [e, if_true] at hi ⊢
      have := clampTo_range (lo := 0) (hi := (load (clampTo 16 80) (field1 data 0x06)).value - 8) (field1 data 0x07) (by omega)
      simp only [load] at this hi ⊢
      omega
    · exact by decide
  have rc : (loadHost data).recheckMs ≤ 255 := by
    show (loadDefault (byteAt data 1) 10 id (field1 data 0x0A)).value ≤ 255
    have := field1_lt data 0x0A
    unfold loadDefault
    split
    · simp only [load, id]
      omega
    · exact by decide
  exact ⟨la.1, la.2, pg.2, no.1, no.2, ur.1, ur.2, hi.1, hi.2, lo, li.2, rc⟩

end Sys2Proof.Machine
end

