-- ==== Sys2Proof/Laws/PerInstr.lean ====
section
/-! SUPPORT. The per-command family `Operands`: what a command's well-formedness says of its operands, one lemma for each
constructor. -/

namespace Sys2Proof.Laws.Operands

open Sys2Proof Sys2Proof.Machine

/-- A well-formed command has the operands that the link and the lane equipment can deliver: a read returns as many bytes as it asked
for (R138, R147, R155), an access includes a byte (R175), an ignored write is the command of that write (R175), and an invalid keylock
reading names no position (R14). The other operands are of types that have no other values. -/
def Statement (i : Instr) : Prop :=
  i.wf = true →
    match i with
    | .hostPartReadComplete data => data.length = 64
    | .laneSettingsReadComplete data => data.length = 128
    | .reloadSettingsReadComplete data => data.length = 128
    | .slipReadComplete data => data.length = 64
    | .causeRead bytes => bytes ≠ 0
    | .areaWrite high value bytes => bytes ≠ 0 ∧ commandOfWrite (if high then 3 else 2) value bytes = .areaWrite high value bytes
    | .registerWriteOther reg value bytes => bytes ≠ 0 ∧ commandOfWrite reg value bytes = .registerWriteOther reg value bytes
    | .notify value => commandOfWrite 4 value 0xF = .notify value
    | .keylockInvalidReading _ contacts => positionOf contacts = none
    | .keylockValidReading _ pos => positionOf (contactsOf pos) = some pos
    | _ => True

theorem powerOnReset : Statement .powerOnReset := fun _ => trivial

theorem linkReset : Statement .linkReset := fun _ => trivial

theorem run : Statement .run := fun _ => trivial

theorem halt : Statement .halt := fun _ => trivial

theorem reset : Statement .reset := fun _ => trivial

theorem reheadOrders : Statement .reheadOrders := fun _ => trivial

theorem reheadPages : Statement .reheadPages := fun _ => trivial

theorem notify (v : Word32) : Statement (.notify v) := fun _ => rfl

theorem causeRead (b : BitVec 4) : Statement (.causeRead b) := fun h => by simpa [Instr.wf] using h

theorem areaWrite (high : Bool) (v : Word32) (b : BitVec 4) : Statement (.areaWrite high v b) := fun h => ⟨by simpa [Instr.wf] using h, by cases high <;> rfl⟩

theorem registerWriteOther (reg : Fin 8) (v : Word32) (b : BitVec 4) : Statement (.registerWriteOther reg v b) := fun h => by
  simp only [Instr.wf, Bool.and_eq_true, bne_iff_ne, writeIsOther] at h
  refine ⟨h.1, ?_⟩
  obtain ⟨-, h⟩ := h
  match reg, h with
  | 0, _ => rfl
  | 1, h =>
    simp only [commandOfWrite, Fin.val_one]
    cases hb : b.getLsbD 0
    · rfl
    · simp only [Fin.val_one, hb] at h
      revert h
      generalize v.toNat % 16 = n
      intro h
      match n with
      | 0 => rfl
      | 1 | 2 | 3 | 4 | 5 => simp at h
      | n + 6 => rfl
  | 2, h => cases h
  | 3, h => cases h
  | 4, h => cases h
  | 5, _ => rfl
  | 6, _ => rfl
  | 7, _ => rfl

theorem dmaAbort : Statement .dmaAbort := fun _ => trivial

theorem hostPartReadComplete (data : List Byte) : Statement (.hostPartReadComplete data) := fun h => by simpa [Instr.wf] using h

theorem laneSettingsReadComplete (data : List Byte) : Statement (.laneSettingsReadComplete data) := fun h => by simpa [Instr.wf] using h

theorem statusWriteComplete : Statement .statusWriteComplete := fun _ => trivial

theorem reloadSettingsReadComplete (data : List Byte) : Statement (.reloadSettingsReadComplete data) := fun h => by simpa [Instr.wf] using h

theorem reloadEchoWriteComplete : Statement .reloadEchoWriteComplete := fun _ => trivial

theorem pageLinkReadComplete (link : Word32) : Statement (.pageLinkReadComplete link) := fun _ => trivial

theorem pageHeaderReadComplete (state : Byte) : Statement (.pageHeaderReadComplete state) := fun _ => trivial

theorem recordWriteComplete : Statement .recordWriteComplete := fun _ => trivial

theorem headerBodyWriteComplete : Statement .headerBodyWriteComplete := fun _ => trivial

theorem closedMarkerWriteComplete : Statement .closedMarkerWriteComplete := fun _ => trivial

theorem lingerExpiry : Statement .lingerExpiry := fun _ => trivial

theorem journalRecheckExpiry : Statement .journalRecheckExpiry := fun _ => trivial

theorem orderLinkReadComplete (link : Word32) : Statement (.orderLinkReadComplete link) := fun _ => trivial

theorem slipReadComplete (data : List Byte) : Statement (.slipReadComplete data) := fun h => by simpa [Instr.wf] using h

theorem takenWriteComplete : Statement .takenWriteComplete := fun _ => trivial

theorem slipBodyWriteComplete : Statement .slipBodyWriteComplete := fun _ => trivial

theorem slipStateWriteComplete : Statement .slipStateWriteComplete := fun _ => trivial

theorem walkerRecheckExpiry : Statement .walkerRecheckExpiry := fun _ => trivial

theorem drawerKick (l : Lane) : Statement (.drawerKick l) := fun _ => trivial

theorem drawerLockout (l : Lane) : Statement (.drawerLockout l) := fun _ => trivial

theorem drawerRelease (l : Lane) : Statement (.drawerRelease l) := fun _ => trivial

theorem scannerSet (l : Lane) (p : Port) (enable : Bool) : Statement (.scannerSet l p enable) := fun _ => trivial

theorem scanConfirm (l : Lane) (p : Port) (bad : Bool) : Statement (.scanConfirm l p bad) := fun _ => trivial

theorem keyImageRead (l : Lane) : Statement (.keyImageRead l) := fun _ => trivial

theorem laneReload (l : Lane) : Statement (.laneReload l) := fun _ => trivial

theorem laneState (l : Lane) (y : Target) : Statement (.laneState l y) := fun _ => trivial

theorem countersRead (l : Lane) (clear : Bool) : Statement (.countersRead l clear) := fun _ => trivial

theorem flush : Statement .flush := fun _ => trivial

theorem policyLock : Statement .policyLock := fun _ => trivial

theorem journalMark (tag : Word32) : Statement (.journalMark tag) := fun _ => trivial

theorem markEntry : Statement .markEntry := fun _ => trivial

theorem idleTimerExpiry (l : Lane) : Statement (.idleTimerExpiry l) := fun _ => trivial

theorem keylockValidReading (l : Lane) (pos : Position) : Statement (.keylockValidReading l pos) := fun _ => by cases pos <;> rfl

theorem keylockInvalidReading (l : Lane) (contacts : BitVec 4) : Statement (.keylockInvalidReading l contacts) := fun h => by
  simp only [Instr.wf, oneContact, Bool.not_eq_true', Bool.or_eq_false_iff, beq_eq_false_iff_ne] at h
  simp only [positionOf]
  rw [if_neg h.1.1.1, if_neg h.1.1.2, if_neg h.1.2, if_neg h.2]

theorem keylockSettleExpiry (l : Lane) : Statement (.keylockSettleExpiry l) := fun _ => trivial

theorem keylockIndeterminateExpiry (l : Lane) : Statement (.keylockIndeterminateExpiry l) := fun _ => trivial

theorem pass (l : Lane) (raw : BitVec 128) : Statement (.pass l raw) := fun _ => trivial

theorem baselineCaptureEnd (l : Lane) : Statement (.baselineCaptureEnd l) := fun _ => trivial

theorem typematicExpiry (l : Lane) : Statement (.typematicExpiry l) := fun _ => trivial

theorem anyKeyExamination (l : Lane) (active : Bool) : Statement (.anyKeyExamination l active) := fun _ => trivial

theorem anyKeyDetection (l : Lane) : Statement (.anyKeyDetection l) := fun _ => trivial

theorem characterReceived (l : Lane) (p : Port) (char : RxChar) : Statement (.characterReceived l p char) := fun _ => trivial

theorem gapTimerExpiry (l : Lane) (p : Port) : Statement (.gapTimerExpiry l p) := fun _ => trivial

theorem toneStepExpiry (l : Lane) (p : Port) : Statement (.toneStepExpiry l p) := fun _ => trivial

theorem drawerSensorChange (l : Lane) (isOpen : Bool) : Statement (.drawerSensorChange l isOpen) := fun _ => trivial

theorem drawerSensorSettleExpiry (l : Lane) : Statement (.drawerSensorSettleExpiry l) := fun _ => trivial

theorem kickPulseEnd (l : Lane) : Statement (.kickPulseEnd l) := fun _ => trivial

theorem confirmExpiry (l : Lane) : Statement (.confirmExpiry l) := fun _ => trivial

theorem ajarAlertMark (l : Lane) : Statement (.ajarAlertMark l) := fun _ => trivial

theorem ajarFaultMark (l : Lane) : Statement (.ajarFaultMark l) := fun _ => trivial

theorem presenceTimerExpiry (l : Lane) : Statement (.presenceTimerExpiry l) := fun _ => trivial

theorem presenceMeasurementEnd (l : Lane) (followed : Bool) : Statement (.presenceMeasurementEnd l followed) := fun _ => trivial

theorem receiveLineReturnedHigh (l : Lane) (p : Port) : Statement (.receiveLineReturnedHigh l p) := fun _ => trivial

end Sys2Proof.Laws.Operands
end

