-- ==== Sys2Proof/Laws/Staging.lean ====
section
/-! SUPPORT. Records that enter the queue together: the run-start baseline set (R18, R112) and the recovery step (R109). -/

namespace Sys2Proof.Machine

/-- From `s` to `t` the records `rs` have entered the queue, whatever its fill, with flow hold set at the flow high mark (R105), and of the
rest only lanes have moved. -/
structure Stages (s t : State) (rs : List StagedRecord) : Prop where
  pending : t.pending = s.pending
  run : t.run = s.run
  staging : t.staging = { s.staging with
    queue := s.staging.queue ++ rs
    hold := s.staging.hold || decide (rs ≠ [] ∧ s.unit.host.flowHigh ≤ s.staging.queue.length + rs.length) }
  numbered : s.seqOk → t.seqOk
  journal : t.journal = s.journal
  walker : t.walker = s.walker
  unit : t.unit = s.unit
  dma : t.dma = s.dma
  hostMem : t.hostMem = s.hostMem
  causeReadData : t.causeReadData = s.causeReadData
  freeUsed : t.freeUsed = s.freeUsed

theorem Stages.refl (s : State) : Stages s s [] where
  pending := rfl
  run := rfl
  staging := by simp
  numbered h := h
  journal := rfl
  walker := rfl
  unit := rfl
  dma := rfl
  hostMem := rfl
  causeReadData := rfl
  freeUsed := rfl

theorem Stages.trans {s t u : State} {as bs : List StagedRecord} (a : Stages s t as) (b : Stages t u bs) : Stages s u (as ++ bs) where
  pending := b.pending.trans a.pending
  run := b.run.trans a.run
  staging := by
    rw [b.staging, a.staging, a.unit]
    simp only [List.length_append, List.append_assoc, Staging.mk.injEq, true_and, and_true]
    cases as <;> cases bs <;> (simp [Bool.or_assoc]; try grind)
  numbered h := b.numbered (a.numbered h)
  journal := b.journal.trans a.journal
  walker := b.walker.trans a.walker
  unit := b.unit.trans a.unit
  dma := b.dma.trans a.dma
  hostMem := b.hostMem.trans a.hostMem
  causeReadData := b.causeReadData.trans a.causeReadData
  freeUsed := b.freeUsed.trans a.freeUsed

/-- A change of a lane that keeps its sequence stages nothing. -/
theorem Stages.modLane (s : State) (l : Lane) {f : LaneUnit → LaneUnit} (hf : (f (s.lane l)).seq = (s.lane l).seq) :
    Stages s (s.modLane l f) [] :=
  { Stages.refl s with
    numbered := fun h => h.congr rfl rfl fun m => by
      rw [lane_modLane]
      split
      · next e => subst e; exact hf
      · rfl }

theorem Stages.stage (s : State) (l : Lane) (b : RecordBody) : Stages s (s.stage l b) (stamped l s.run.clock (s.lane l).seq [b]) where
  pending := by simp
  run := by simp
  staging := by rw [stage_staging]; simp
  numbered h := h.append rfl rfl (stage_queue s l b) (by simp [State.stage]) fun m => by rw [stage_lane]; split <;> rfl
  journal := by simp
  walker := by simp
  unit := by simp
  dma := by simp
  hostMem := by simp
  causeReadData := by simp
  freeUsed := by simp

/-- A lane's record of lane 0xFF (R103). -/
theorem stageDevice_seqOk {s : State} (h : s.seqOk) (b : RecordBody) : (s.stageDevice b).seqOk :=
  h.appendDevice (r := ⟨b, none, s.run.clock, s.staging.devSeq⟩) rfl rfl (by simp [State.stageDevice]) (by simp [State.stageDevice])
    fun m => by rw [lane_congr (stageDevice_lanes s b) m]

/-- From `s` to `t` lane `l` has staged the records `bs`, and no other lane has moved. -/
def LaneStages (l : Lane) (s t : State) (bs : List RecordBody) : Prop :=
  Stages s t (stamped l s.run.clock (s.lane l).seq bs) ∧ (t.lane l).seq = (s.lane l).seq + BitVec.ofNat 16 bs.length ∧
    ∀ m, m ≠ l → t.lane m = s.lane m

theorem LaneStages.refl (l : Lane) (s : State) : LaneStages l s s [] := ⟨Stages.refl s, by simp, fun _ _ => rfl⟩

theorem LaneStages.trans {l : Lane} {s t u : State} {as bs : List RecordBody} (a : LaneStages l s t as) (b : LaneStages l t u bs) :
    LaneStages l s u (as ++ bs) := by
  obtain ⟨a1, a2, a3⟩ := a
  obtain ⟨b1, b2, b3⟩ := b
  rw [a1.run, a2] at b1
  refine ⟨by rw [stamped_append]; exact a1.trans b1, ?_, fun m h => (b3 m h).trans (a3 m h)⟩
  rw [b2, a2, List.length_append, BitVec.ofNat_add, BitVec.add_assoc]

theorem LaneStages.stage (l : Lane) (s : State) (b : RecordBody) : LaneStages l s (s.stage l b) [b] :=
  ⟨Stages.stage s l b, by rw [stage_lane, if_pos rfl]; rfl, fun m h => by rw [stage_lane, if_neg h]⟩

theorem LaneStages.modLane (l : Lane) (s : State) {f : LaneUnit → LaneUnit} (hf : (f (s.lane l)).seq = (s.lane l).seq) :
    LaneStages l s (s.modLane l f) [] :=
  ⟨Stages.modLane s l hf, by rw [lane_modLane_same, hf]; simp, fun _ h => lane_modLane_ne _ _ h⟩

/-- A lane's records in turn, of which only its sequence moves. -/
theorem LaneStages.foldl (l : Lane) : ∀ (bs : List RecordBody) (s : State),
    LaneStages l s (bs.foldl (fun s b => s.stage l b) s) bs ∧
      (bs.foldl (fun s b => s.stage l b) s).lane l = { s.lane l with seq := (s.lane l).seq + BitVec.ofNat 16 bs.length }
  | [], s => ⟨LaneStages.refl l s, by simp⟩
  | b :: bs, s => by
    obtain ⟨h1, h2⟩ := LaneStages.foldl l bs (s.stage l b)
    refine ⟨(LaneStages.stage l s b).trans h1, ?_⟩
    rw [List.foldl_cons, h2, stage_lane, if_pos rfl, List.length_cons, Nat.add_comm, BitVec.ofNat_add, ← BitVec.add_assoc]
    rfl

/-- Lanes taken in turn: each stages what its unit calls for, and ends as `P` says. -/
theorem Stages.forLanes (f : Lane → State → State) (g : LaneUnit → List RecordBody) (P : LaneUnit → LaneUnit → Prop)
    (h : ∀ l t, LaneStages l t (f l t) (g (t.lane l)) ∧ P (t.lane l) ((f l t).lane l)) (s : State) :
    Stages s (s.forLanes f) (allLanes.flatMap fun l => stamped l s.run.clock (s.lane l).seq (g (s.lane l))) ∧
      ∀ m, P (s.lane m) ((s.forLanes f).lane m) := by
  have key : ∀ (ls : List Lane) (t : State), ls.Nodup → t.run = s.run → (∀ m ∈ ls, t.lane m = s.lane m) →
      Stages t (ls.foldl (fun s l => f l s) t) (ls.flatMap fun l => stamped l s.run.clock (s.lane l).seq (g (s.lane l))) ∧
        ∀ m, if m ∈ ls then P (s.lane m) ((ls.foldl (fun s l => f l s) t).lane m)
          else (ls.foldl (fun s l => f l s) t).lane m = t.lane m := by
    intro ls
    induction ls with
    | nil => intro t _ _ _; exact ⟨Stages.refl t, fun m => by simp⟩
    | cons l ls ih =>
      intro t hn hr ht
      obtain ⟨hl, hn⟩ := List.nodup_cons.1 hn
      obtain ⟨⟨a1, -, a3⟩, a4⟩ := h l t
      rw [hr, ht l (by simp)] at a1
      rw [ht l (by simp)] at a4
      obtain ⟨b1, b2⟩ := ih (f l t) hn (a1.run.trans hr) fun m hm =>
        (a3 m (by rintro rfl; exact hl hm)).trans (ht m (by simp [hm]))
      refine ⟨a1.trans b1, fun m => ?_⟩
      have bm := b2 m
      rw [List.foldl_cons]
      by_cases e : m = l
      · subst e
        rw [if_neg hl] at bm
        rw [if_pos (by simp), bm]
        exact a4
      · rw [a3 m e] at bm
        simp only [List.mem_cons, e, false_or]
        exact bm
  obtain ⟨a, b⟩ := key allLanes s allLanes_nodup rfl fun _ _ => rfl
  refine ⟨a, fun m => ?_⟩
  have := b m
  rwa [if_pos (mem_allLanes m)] at this

/-- The run-start baseline set: RUN_START, then every lane's records in lane order (R18, R112). -/
theorem stageBaseline_spec (s : State) :
    Stages (s.stageDevice (.runStart s.run.runCount)) s.stageBaseline
      (allLanes.flatMap fun l => stamped l s.run.clock (s.lane l).seq (s.lane l).baselineRecords) ∧
    ∀ m, s.stageBaseline.lane m =
      { s.lane m with seq := (s.lane m).seq + BitVec.ofNat 16 (s.lane m).baselineRecords.length } := by
  have e : ∀ m, (s.stageDevice (.runStart s.run.runCount)).lane m = s.lane m := fun m => lane_congr (stageDevice_lanes _ _) m
  have := Stages.forLanes (fun l s => (s.lane l).baselineRecords.foldl (fun s b => s.stage l b) s) LaneUnit.baselineRecords
    (fun u v => v = { u with seq := u.seq + BitVec.ofNat 16 u.baselineRecords.length }) (fun l t => LaneStages.foldl l _ t)
    (s.stageDevice (.runStart s.run.runCount))
  rw [State.stageBaseline]
  simpa only [e, stageDevice_run] using this

/-! ## Recovery (R109) -/

/-- What the recovery step stages for a lane. -/
def LaneUnit.recoveryRecords (u : LaneUnit) : List RecordBody :=
  if u.hasLoss then
    .gap u.losses[0] u.losses[1] u.losses[2] u.losses[3] :: if 0 < u.losses[0] then [u.imageRecord .resync] else []
  else []

theorem hasLoss_false {u : LaneUnit} (h : u.hasLoss = false) : u.losses = Vector.replicate 4 0 := by
  simp only [LaneUnit.hasLoss, Bool.or_eq_false_iff, decide_eq_false_iff_not, Nat.not_lt, Nat.le_zero_eq] at h
  ext i hi
  rw [Vector.getElem_replicate]
  have : i = 0 ∨ i = 1 ∨ i = 2 ∨ i = 3 := by omega
  rcases this with rfl | rfl | rfl | rfl
  · exact h.1.1.1
  · exact h.1.1.2
  · exact h.1.2
  · exact h.2

/-- The recovery of one lane stages its records and leaves it without pending losses; other lanes stay (R109). -/
theorem recoverLane_spec (l : Lane) (s : State) :
    LaneStages l s (s.recoverLane l) (s.lane l).recoveryRecords ∧
      (s.recoverLane l).lane l = { s.lane l with
        losses := Vector.replicate 4 0, seq := (s.lane l).seq + BitVec.ofNat 16 (s.lane l).recoveryRecords.length } := by
  simp only [State.recoverLane, LaneUnit.recoveryRecords]
  by_cases hl : (s.lane l).hasLoss = true
  · rw [if_pos hl, if_pos hl]
    generalize RecordBody.gap _ _ _ _ = b
    have a := (LaneStages.stage l s b).trans
      (LaneStages.modLane l (s.stage l b) (f := fun u => { u with losses := Vector.replicate 4 0 }) rfl)
    have al : ((s.stage l b).modLane l fun u => { u with losses := Vector.replicate 4 0 }).lane l =
        { s.lane l with losses := Vector.replicate 4 0, seq := (s.lane l).seq + 1 } := by
      rw [lane_modLane_same, stage_lane, if_pos rfl]
    generalize (s.stage l b).modLane l _ = t at a al
    by_cases h0 : 0 < (s.lane l).losses[0]
    · rw [if_pos h0, if_pos h0, al]
      refine ⟨a.trans (LaneStages.stage l t _), ?_⟩
      rw [stage_lane, if_pos rfl, al]
      simp only [List.length_cons, List.length_nil, Nat.zero_add, LaneUnit.mk.injEq, true_and, and_true]
      bv_omega
    · rw [if_neg h0, if_neg h0]
      exact ⟨a, al⟩
  · rw [if_neg hl, if_neg hl]
    refine ⟨LaneStages.refl l s, ?_⟩
    simp [← hasLoss_false (show (s.lane l).hasLoss = false by simpa using hl)]

/-- A record has left the queue (R106, R109): above the flow low mark nothing happens; at it or below flow hold is cleared, every lane
stages what its losses call for, and no loss is pending after it. -/
theorem afterLeave_spec (s : State) :
    (s.unit.host.flowLow < s.staging.queue.length → s.afterLeave = s) ∧
    (s.staging.queue.length ≤ s.unit.host.flowLow →
      Stages { s with staging.hold := false } s.afterLeave
        (allLanes.flatMap fun l => stamped l s.run.clock (s.lane l).seq (s.lane l).recoveryRecords) ∧
      ∀ m, s.afterLeave.lane m = { s.lane m with
        losses := Vector.replicate 4 0, seq := (s.lane m).seq + BitVec.ofNat 16 (s.lane m).recoveryRecords.length }) := by
  unfold State.afterLeave
  refine ⟨fun h => if_neg (by omega), fun h => ?_⟩
  rw [if_pos h]
  exact Stages.forLanes (fun l s => s.recoverLane l) LaneUnit.recoveryRecords (fun u v => v = { u with
    losses := Vector.replicate 4 0, seq := u.seq + BitVec.ofNat 16 u.recoveryRecords.length }) recoverLane_spec
    { s with staging.hold := false }

end Sys2Proof.Machine
end

