-- ==== Sys2Proof/Tests/Slice0.lean ====
section
/-! SUPPORT. Tests: the operand checks, examples whose results the manual's own rules and tables give, and for each statement
of Obligations.lean that has hypotheses a state and operands that meet them. -/

namespace Sys2Proof.Tests

-- One theorem at a time: each kernel evaluation otherwise holds a thread until all before it are checked.
set_option Elab.async false

open Sys2Proof.Machine

/-! ## Operand checks: an ill-formed term for each -/

theorem test_wf_host_part_length : Instr.wf (.hostPartReadComplete []) = false := by decide
theorem test_wf_lane_settings_length : Instr.wf (.laneSettingsReadComplete (List.replicate 127 0)) = false := by decide +kernel
theorem test_wf_reload_length : Instr.wf (.reloadSettingsReadComplete (List.replicate 129 0)) = false := by decide +kernel
theorem test_wf_slip_length : Instr.wf (.slipReadComplete (List.replicate 63 0)) = false := by decide
theorem test_wf_cause_read_no_byte : Instr.wf (.causeRead 0) = false := by decide
theorem test_wf_area_write_no_byte : Instr.wf (.areaWrite true 5 0) = false := by decide
theorem test_wf_register_write_no_byte : Instr.wf (.registerWriteOther 0 5 0) = false := by decide
theorem test_wf_register_write_is_run : Instr.wf (.registerWriteOther 1 0x51 1) = false := by decide
theorem test_wf_register_write_is_notify : Instr.wf (.registerWriteOther 4 0 15) = false := by decide
theorem test_wf_invalid_reading_valid : Instr.wf (.keylockInvalidReading 0 4) = false := by decide
theorem test_wf_good : Instr.wf (.registerWriteOther 1 6 1) = true ∧ Instr.wf (.keylockInvalidReading 0 6) = true ∧
    Instr.wf (.hostPartReadComplete (List.replicate 64 0)) = true := by decide

/-! ## States -/

/-- The device in a state, all else as after reset. -/
def dev (d : DeviceState) : State := { State.reset with run.device := d }

/-- A RUNNING device with effective host settings, and lane 3 as `u`. -/
def lane3 (u : LaneUnit) : State := (dev .running).setLane 3 u

/-- A configured lane that is ACTIVE. -/
def active : LaneUnit := { LaneUnit.reset with
  configured := true
  laneState := .active
  settings := { LaneSettings.none with
    enable := true, drive := 4, sense := 8, pass := 4, debounce := 3, rollover := 2, settleMs := 200, typematicMs := 500
    repeatMs := 100, idleMin := 1, dupWindowMs := 1000
    portA := { PortSettings.none with enable := true, rate := 3, terminator := 0x0D, minLength := 4, gapMs := 30, toneMs := 80 }
    drawer := { enable := true, kickMs := 60, confirmMs := 800, alertS := 60, faultS := 180, settleMs := 16, presenceS := 5
                lockoutCount := 2, lockoutMin := 15 } }
  keylock := { Keylock.reset with position := .register, running := true }
  portA := { ScanPort.reset with on := true, orderEnable := true }
  drawer := { Drawer.reset with running := true } }

/-- A state with one request granted. -/
def granted (d : DeviceState) (w : Requester) (p : Purpose) (data : List Byte) : State :=
  { dev d with dma.granted := some { who := w, req := { purpose := p, offset := 0x40, length := data.length, data := data }, base := 0 } }

/-- A slip. -/
def slip (kind lane p0 p1 : Byte) : Slip :=
  { offset := 0x80, kind := kind, lane := lane, flags := 1, tag := 7, params := [p0, p1] ++ List.replicate 14 0 }

/-- The walker has handed an order on. -/
def handing (s : State) (o : Order) : State :=
  { s with walker := { s.walker with state := .working, stage := .handed o, current := some (slip 1 3 0 0) } }

/-- What a command's next state shows. -/
def after {α : Type} (c : Instr) (s : State) (view : State → α) : Option α :=
  match exec c s with
  | .next t => some (view t)
  | _ => none

/-! ## Examples from the manual -/

/-- R174 and 00 "Conventions": T ms are the ticks of T × 1024 / 1000, rounded up. -/
theorem test_ticks : msTicks 20 = 21 ∧ msTicks 60 = 62 ∧ msTicks 800 = 820 ∧ secTicks 5 = 5120 ∧ minTicks 1 = 61440 := by decide

/-- R157: flow low is held at 8 below the effective flow high. -/
theorem test_flow_low :
    (loadHost ([1, 0, 1, 0, 1, 1, 10, 50] ++ List.replicate 56 0)).flowHigh = 16 ∧
    (loadHost ([1, 0, 1, 0, 1, 1, 10, 50] ++ List.replicate 56 0)).flowLow = 8 ∧
    (loadHost ([1, 0, 1, 0, 1, 1, 10, 50] ++ List.replicate 56 0)).clamped = true := by decide

/-- A list of byte values. -/
def text (s : List Nat) : List Byte := s.map (BitVec.ofNat 8 ·)

/-- Lane 3 with a frame in assembly at port A whose text is `t`. -/
def framed (t : List Byte) : LaneUnit := { active with portA := { active.portA with frame := .assembling, text := t } }

/-- Check enable 1 on port A. -/
def checked (u : LaneUnit) : LaneUnit := { u with settings.portA.check := true }

/-- 04 chapter 4.10: "40170726" is refused CHECK with the expected digit 5. -/
theorem test_label_check :
    after (.characterReceived 3 .a (.sampled 0x0D true)) (lane3 (checked (framed [0x34, 0x30, 0x31, 0x37, 0x30, 0x37, 0x32, 0x36])))
      (fun t => t.staging.queue.map StagedRecord.body) =
    some [.labelRefused .a (.check 5 [0x34, 0x30, 0x31, 0x37, 0x30, 0x37, 0x32, 0x36])] := by decide +kernel

/-- 04 chapter 4.10: "7318442091566" passes, and the lane starts GOOD. -/
theorem test_label_passed :
    after (.characterReceived 3 .a (.sampled 0x0D true))
      (lane3 (checked (framed [0x37, 0x33, 0x31, 0x38, 0x34, 0x34, 0x32, 0x30, 0x39, 0x31, 0x35, 0x36, 0x36])))
      (fun t => (t.staging.queue.map StagedRecord.body, (t.lane 3).portA.toneOn)) =
    some ([.label .a none true [0x37, 0x33, 0x31, 0x38, 0x34, 0x34, 0x32, 0x30, 0x39, 0x31, 0x35, 0x36, 0x36]], true) := by
  decide +kernel

/-- 04 chapter 4.12: the clock wraps, elapsed is 296 and the frame is suppressed; R71. -/
theorem test_duplicate_wrap :
    after (.characterReceived 3 .a (.sampled 0x0D true))
      (lane3 { framed [0x35, 0x35, 0x35, 0x35] with
        settings.dupWindowMs := 300
        acceptor := { last := some { text := [0x35, 0x35, 0x35, 0x35], port := .b, time := 4294967000 }, keySince := false } })
      (fun t => ((t.lane 3).acceptor.last.map LastLabel.time, (t.lane 3).counters[2], t.staging.queue.length)) =
    some (some 0, 1, 0) := by decide +kernel

/-- 02 chapter 2.13, tick 1208: keys 50 and 53 debounce down in one pass; 53 is a ghost. -/
def ghostLane : LaneUnit := { active with
  settings.rollover := 10
  settings.repeatMap := 0x4000000000000#128
  kb := { active.kb with
    mode := .scanning, passTimer := some 0, image := [18, 21], counts := ((Vector.replicate 128 0).set 50 2).set 53 2 } }

/-- The raw reading of that pass. -/
def ghostRaw : BitVec 128 := BitVec.ofNat 128 (2 ^ 18 + 2 ^ 21 + 2 ^ 50 + 2 ^ 53)

theorem test_ghost :
    after (.pass 3 ghostRaw) (lane3 ghostLane)
      (fun t => ((t.lane 3).kb.image, (t.lane 3).kb.blocked, (t.lane 3).kb.typematic.map Typematic.left,
        t.staging.queue.map StagedRecord.body)) =
    some ([18, 21, 50], [(53, .ghost)], some 512, [.keyDown 50 3, .keyBlocked 53 .ghost 3]) := by decide +kernel

/-- 05 chapter 5.11: the kick at 50,000, its jam at 50,820 and the late opening at 51,000. -/
theorem test_kick :
    after (.drawerKick 3) (handing { lane3 active with run.clock := 50000 } (.drawerKick 3))
      (fun t => ((t.lane 3).drawer.pulse, (t.lane 3).drawer.confirm, t.staging.queue.map StagedRecord.body)) =
    some (some 62, some 820, [.drawer .kicking .closed .order false false 62]) := by decide +kernel

theorem test_jam_late :
    after (.drawerSensorSettleExpiry 3)
      { lane3 { active with drawer := { active.drawer with
          cond := .jammed, kickStart := 50000, rawOpen := true, settle := some 0 } } with run.clock := 51000 }
      (fun t => ((t.lane 3).drawer.cond, (t.lane 3).drawer.alert, t.staging.queue.map StagedRecord.body)) =
    some (.isOpen, some 61440, [.drawer .isOpen .jammed .late false false 1000]) := by decide +kernel

/-- 05 chapter 5.12 at 1,200,000: the third entry within the window sets the latch. -/
theorem test_lockout :
    after (.drawerSensorSettleExpiry 3)
      { lane3 { active with
          settings.drawer.lockoutCount := 3
          drawer := { active.drawer with rawOpen := true, settle := some 0, history := [400000, 1100000] } } with
        run.clock := 1200000 }
      (fun t => ((t.lane 3).drawer.latch, (t.lane 3).drawer.history, t.staging.queue.map StagedRecord.body)) =
    some (true, [], [.drawer .forced .closed .forced true false 3, .drawer .forced .forced .lockout true false 3]) := by decide +kernel

/-- 05 chapter 5.12 at 1,100,000: the entry of age 1,000,000 is removed. -/
theorem test_lockout_prune :
    after (.drawerSensorSettleExpiry 3)
      { lane3 { active with
          settings.drawer.lockoutCount := 3
          drawer := { active.drawer with rawOpen := true, settle := some 0, history := [100000, 400000] } } with
        run.clock := 1100000 }
      (fun t => ((t.lane 3).drawer.latch, (t.lane 3).drawer.history)) = some (false, [400000, 1100000]) := by decide +kernel

/-- 01 chapter 1.6 at 130,245 and 141,024: the wake on MANAGER, and the loss of the wiring. -/
theorem test_keylock_wake :
    after (.keylockSettleExpiry 3)
      (lane3 { active with
        laneState := .doze, settings.wake := 0x0C#5, settings.idleMin := 2
        keylock := { active.keylock with candidate := some .manager, settle := some 0 } })
      (fun t => ((t.lane 3).laneState, (t.lane 3).idle, t.staging.queue.map StagedRecord.body)) =
    some (.active, some 122880, [.laneState .active (.wake .keylock), .keylock .manager .register false]) := by decide +kernel

theorem test_keylock_lost :
    after (.keylockIndeterminateExpiry 3)
      (lane3 { active with keylock := { active.keylock with position := .manager, indet := some 0 } })
      (fun t => ((t.lane 3).keylock.position, t.staging.queue.map StagedRecord.body)) =
    some (.lock, [.keylock .lock .manager true]) := by decide +kernel

/-- 03 chapter 3.11 at 5136: a fragment of 5 characters, counted. -/
theorem test_fragment :
    after (.gapTimerExpiry 3 .a)
      (lane3 { framed (List.replicate 5 0x31) with portA.gap := some 0 })
      (fun t => ((t.lane 3).portA.frame, (t.lane 3).counters[1], t.staging.queue.map StagedRecord.body)) =
    some (.waiting, 1, [.labelRefused .a (.fragment 5 false false)]) := by decide +kernel

/-- 07 chapter 7.7 at 10,021: the linger timer on an empty page announces. -/
theorem test_linger :
    after .lingerExpiry
      { dev .running with journal := { Journal.reset with
          state := .filling, unannounced := 1, linger := some 0
          page := some { offset := 0x1000, used := 0, count := 0, firstSeq := none, openTime := 10000, lanes := 0, closing := none
                         closeTime := 0, lingerDue := false } } }
      (fun t => (t.journal.unannounced, t.run.causes, t.journal.linger)) = some (0, 1, none) := by decide +kernel

/-- 06 chapter 6.8: at a fill of 88 a class 0 record is lost and a class 2 record enters. -/
theorem test_fill_88 :
    let s : State := { lane3 active with staging.queue := List.replicate 88 ⟨.mark 0, none, 0, 0⟩ }
    ((s.offer 3 (.keyDown 1 1)).staging.queue.length, ((s.offer 3 (.keyDown 1 1)).lane 3).losses[0],
      ((s.offer 3 (.keyDown 1 1)).lane 3).counters[7]) = (88, 1, 1) ∧
    (s.offer 3 (.drawer .kicking .closed .order false false 62)).staging.queue.length = 89 := by decide +kernel

/-- 09 chapter 9.9: rollover 40 is held at 16, keylock settle 10 ms at 50 ms, 52 ticks. -/
theorem test_reload_clamp :
    let c := loadLane ([1, 1, 0, 0, 0, 0, 8, 16, 4, 3, 40, 0, 10, 0] ++ List.replicate 114 0) (some active.settings.drawer)
    c.1.rollover = 16 ∧ c.1.settleMs = 50 ∧ msTicks c.1.settleMs = 52 ∧ c.2 = true ∧ c.1.drawer.presenceS = 5 := by decide +kernel

/-- R175: IDENT, and RUN from RESET_IDLE reads the host part's 64 bytes. -/
theorem test_registers : State.reset.readRegister 0 = 0x08040001 ∧ commandOfWrite 1 0x00000051 0xF = .run := by decide

theorem test_run :
    after .run State.reset (fun t => (t.run.device, t.run.runCount, t.dma.granted.map fun g => (g.req.offset, g.req.length))) =
    some (.loading, 1, some (0, 64)) := by decide +kernel

/-- R175, R179, R180: the causes read, and the interrupt request after the read. -/
theorem test_cause_read :
    after (.causeRead 0xF) { dev .running with run.causes := 0x50, run.enable := 0x7F } (fun t => (t.causeReadData, t.irq)) =
    some (0x750, false) := by decide +kernel

/-! ## Witnesses: each statement's hypotheses are met -/

theorem witness_StepTakesFront : ({ State.reset with pending := [.run, .halt] } : State).pending = .run :: [.halt] := by decide

theorem witness_EmptyQueueTicks : State.reset.pending = [] ∧ (lane3 active).pending = [] ∧ (lane3 active).run.device = .running ∧
    ((lane3 active).lane 3).laneState = .active := by decide +kernel

theorem witness_FullResets : ∃ (c d : Instr) (k j : ResetKind), (c = .powerOnReset ∧ k = .powerOn) ∧ (d = .linkReset ∧ j = .link) :=
  ⟨_, _, _, _, ⟨rfl, rfl⟩, rfl, rfl⟩

theorem witness_RunTaken : State.reset.run.device = .resetIdle ∧ (dev .stopped).run.device = .stopped ∧
    State.reset.dma.busy .settings = false ∧ (dev .stopped).dma.busy .settings = false ∧
    (dev .faulted).run.device ≠ .resetIdle ∧ (dev .faulted).run.device ≠ .stopped := by decide

theorem witness_HaltTaken : (dev .running).run.device = .running ∧ (dev .stopping).run.device ≠ .running := by decide

/-- HALT goes to STOPPED at once (R133, R173): RUNNING with the walker PARKED, nothing staged or lost, and an open page without a record. -/
theorem witness_HaltTaken_ended :
    let s : State := { dev .running with
      walker.state := .parked
      journal := { Journal.reset with
        state := .filling
        page := some { offset := 64, used := 0, count := 0, firstSeq := none, openTime := 0, lanes := 0, closing := none, closeTime := 0,
                       lingerDue := false } } }
    (s.run.device = .running ∧ s.walker.state = .parked ∧ s.staging.queue = [] ∧ (∀ (l : Lane) (i : Fin 4), (s.lane l).losses[i] = 0) ∧
      s.journal.state = .filling ∧ s.dma.busy .journal = false ∧ s.journal.page.map (fun p => (p.closing, p.count)) = some (none, 0)) ∧
    after .halt s (fun t => (t.run.device, t.journal.state, t.journal.page)) = some (.stopped, .halted, none) := by decide +kernel

/-- A device whose journal writer and walker stand as given. -/
def blocks (d : DeviceState) (j : JournalState) (w : WalkerState) : State :=
  { dev d with journal := { Journal.reset with state := j }, walker := { Walker.reset with state := w } }

theorem witness_ReheadCommands :
    (blocks .running .starved .parked).journal.state = .starved ∧ (blocks .running .starved .parked).walker.state = .parked ∧
    (blocks .running .broken .broken).journal.state = .broken ∧ (blocks .running .broken .broken).walker.state = .broken ∧
    (blocks .stopped .halted .halted).journal.state = .halted ∧ (blocks .stopped .halted .halted).walker.state = .halted ∧
    (blocks .stopped .halted .halted).run.device = .stopped ∧
    (let s := { blocks .running .needPage .fetching with journal.episode := true, walker.isReread := true };
      s.journal.state = .needPage ∧ s.journal.episode = true ∧ s.walker.state = .fetching ∧ s.walker.isReread = true) ∧
    (let s := blocks .running .filling .working;
      ¬(s.journal.state = .starved ∨ s.journal.state = .broken ∨ (s.journal.state = .needPage ∧ s.journal.episode = true) ∨
        (s.journal.state = .halted ∧ s.run.device = .stopped)) ∧
      ¬(s.walker.state = .parked ∨ s.walker.state = .broken ∨ (s.walker.state = .fetching ∧ s.walker.isReread = true) ∨
        (s.walker.state = .halted ∧ s.run.device = .stopped))) := by decide

theorem witness_NotifyTaken :
    (blocks .running .starved .parked).journal.state = .starved ∧ (blocks .running .starved .parked).walker.state = .parked ∧
    (blocks .running .filling .working).journal.state ≠ .starved ∧ (blocks .running .filling .working).journal.state ≠ .needPage ∧
    (blocks .running .filling .working).walker.state ≠ .parked ∧ (blocks .running .filling .working).walker.state ≠ .fetching := by decide

theorem witness_RegisterWindow_area : (dev .resetIdle).run.device = .resetIdle ∧ (dev .stopped).run.device = .stopped ∧
    (dev .loading).run.device ≠ .resetIdle ∧ (dev .loading).run.device ≠ .stopped ∧ (true = true ∧ false = false) ∧
    (0 : Nat) < 32 ∧ (31 : Nat) < 32 := by decide

theorem witness_RegisterWindow_writes : (1 : BitVec 4).getLsbD 0 = true ∧ (0xF1 : Word32) &&& 0xF = 1 ∧ (0x12 : Word32) &&& 0xF = 2 ∧
    (3 : Word32) &&& 0xF = 3 ∧ (4 : Word32) &&& 0xF = 4 ∧ (5 : Word32) &&& 0xF = 5 ∧ (0x10 : Word32) &&& 0xF = 0 ∧
    6 ≤ (6 : Word32).toNat % 16 ∧ 6 ≤ (0xFF : Word32).toNat % 16 ∧ (2 : BitVec 4).getLsbD 0 = false ∧ 5 ≤ (5 : Fin 8).val ∧
    5 ≤ (7 : Fin 8).val := by decide

theorem witness_RegisterWindow_irq : State.reset.baseOk ∧ State.reset.irq = false ∧
    (let s : State := { dev .running with run.causes := 0x40, run.enable := 0x60 };
    s.irq = true ∧ s.run.causes.getLsbD 6 = true ∧ s.run.enable.getLsbD 6 = true) := by
  unfold State.baseOk; decide

theorem witness_LinkAbort : (granted .running .journal .recordWrite [1, 2]).dma.granted =
    some { who := .journal, req := { purpose := .recordWrite, offset := 0x40, length := 2, data := [1, 2] }, base := 0 } := rfl

theorem witness_RunControlKept_faulted : ∃ t, exec .halt (dev .faulted) = .next t ∧ (dev .faulted).run.device = .faulted ∧
    (dev .faulted).dma.granted = none ∧ isReset .halt = false := ⟨_, rfl, rfl, rfl, rfl⟩

theorem witness_RunControlKept : ∃ t u, exec .halt (dev .stopped) = .next t ∧ exec .run (dev .stopped) = .next u ∧
    isReset .halt = false ∧ isReset .run = false ∧ Instr.halt ≠ .run ∧ (∀ h v b, Instr.halt ≠ .areaWrite h v b) ∧
    (∀ b, Instr.halt ≠ .causeRead b) ∧ (∀ b, Instr.run ≠ .causeRead b) :=
  ⟨_, _, rfl, rfl, rfl, rfl, nofun, nofun, nofun, nofun⟩

/-- A host part of 64 bytes with the format and the area length given, the rest 0. -/
def hostPart (format : Byte) (length : Word32) : List Byte :=
  [format] ++ List.replicate 11 0 ++ byte4 length ++ List.replicate 48 0

theorem witness_HostPartRead :
    (granted .loading .settings .hostPartRead []).dma.granted.map (fun g => g.req.purpose) = some .hostPartRead ∧
    (granted .loading .settings .hostPartRead []).run.device = .loading ∧
    (granted .loading .settings .hostPartRead []).dma.waitS = none ∧
    (field1 (hostPart 1 4096) 0 = 1 ∧ 4096 ≤ (field4 (hostPart 1 4096) 0x0C).toNat) ∧
    ¬(field1 (hostPart 1 4095) 0 = 1 ∧ 4096 ≤ (field4 (hostPart 1 4095) 0x0C).toNat) ∧
    ¬(field1 (hostPart 2 4096) 0 = 1 ∧ 4096 ≤ (field4 (hostPart 2 4096) 0x0C).toNat) := by decide +kernel

/-- The fields 2 to 0x0A of a host part at the values given. -/
def hostFields (sel lanes page notice urgent high low linger : Nat) : List Byte :=
  text [1, sel, lanes, page, notice, urgent, high, low] ++ byte2 linger ++ List.replicate 54 0

theorem witness_HostPartFields :
    (let d := hostFields 0 1 3 1 1 16 8 1000;
      field1 d 2 = 1 ∧ field1 d 3 = 3 ∧ field1 d 4 = 1 ∧ field1 d 5 = 1 ∧ field1 d 6 = 16 ∧ field1 d 7 + 8 = (loadHost d).flowHigh ∧
        field2 d 8 = 1000 ∧ (loadHost d).selector = 0) ∧
    (let d := hostFields 0 8 0 16 4 80 73 1001;
      field1 d 2 = 8 ∧ field1 d 3 ≤ 3 ∧ field1 d 4 = 16 ∧ field1 d 5 = 4 ∧ field1 d 6 = 80 ∧
        (loadHost d).flowHigh + 1 = field1 d 7 + 8 ∧ field2 d 8 = 1001 ∧ (loadHost d).selector = 0) ∧
    (loadHost (hostFields 1 1 0 1 0 0 0 0)).selector ≠ 0 := by decide +kernel

/-- A lane settings record with bytes from the offset given. -/
def recordAt (sel : Byte) (o : Nat) (bs : List Nat) : List Byte :=
  [1, 1, sel] ++ List.replicate (o - 3) 0 ++ text bs ++ List.replicate (128 - o - bs.length) 0

theorem witness_LaneRecordFields :
    (∀ d, some active.settings.drawer = some d → d = active.settings.drawer) ∧
    (20 ≤ active.settings.drawer.kickMs ∧ 2 ≤ active.settings.drawer.lockoutCount) ∧
    (loadLane (recordAt 1 3 []) none).1.selector ≠ 0 ∧ (loadLane (recordAt 0 3 []) none).1.selector = 0 ∧
    (let d := recordAt 0 4 [255, 0, 1, 1, 1, 1, 2, 0, 50, 0, 100, 0, 30, 0, 208, 7];
      field2 d 4 = 255 ∧ field1 d 6 = 1 ∧ field1 d 7 = 1 ∧ field1 d 8 = 1 ∧ field1 d 9 = 1 ∧ field1 d 0x0A = 2 ∧ field2 d 0x0C = 50 ∧
        field2 d 0x0E = 100 ∧ field2 d 0x10 = 30 ∧ field2 d 0x12 = 2000) ∧
    (let d := recordAt 0 4 [0, 0, 8, 16, 16, 8, 16, 1, 232, 3, 208, 7, 244, 1, 0, 0];
      field1 d 6 = 8 ∧ field1 d 7 = 16 ∧ field1 d 8 = 16 ∧ field1 d 9 = 8 ∧ field1 d 0x0A = 16 ∧ field2 d 0x0C = 1000 ∧
        field2 d 0x0E = 2000 ∧ field2 d 0x10 = 500) ∧
    (let d := recordAt 0 0x28 [1, 7, 2, 13, 1, 1, 2, 1, 1, 1, 20, 0];
      field1 d 0x29 = 7 ∧ field1 d 0x2A = 2 ∧ field1 d 0x2D = 1 ∧ field1 d 0x2E = 2 ∧ field2 d 0x32 = 20) ∧
    (let d := recordAt 0 0x38 [1, 0, 1, 13, 0, 48, 255, 0, 0, 0, 244, 1];
      field1 d 0x39 ≤ 7 ∧ field1 d 0x3A = 1 ∧ field1 d 0x3D = 48 ∧ field1 d 0x3E = 255 ∧ field2 d 0x42 = 500) ∧
    (let d := recordAt 0 0x48 [20, 0, 100, 0, 5, 0, 5, 0, 4, 60, 2, 1];
      field2 d 0x48 = 20 ∧ field2 d 0x4A = 100 ∧ field2 d 0x4C = 5 ∧ (loadLane d none).1.drawer.alertS = field2 d 0x4E ∧
        field1 d 0x50 = 4 ∧ field1 d 0x51 = 60 ∧ field1 d 0x52 = 2 ∧ field1 d 0x53 = 1) ∧
    (let d := recordAt 0 0x48 [250, 0, 184, 11, 88, 2, 87, 2, 64, 0, 0, 120];
      field2 d 0x48 = 250 ∧ field2 d 0x4A = 3000 ∧ field2 d 0x4C = 600 ∧ field2 d 0x4E < (loadLane d none).1.drawer.alertS ∧
        field1 d 0x50 = 64 ∧ field1 d 0x51 ≤ 60 ∧ field1 d 0x52 = 0 ∧ field1 d 0x53 = 120) := by
  refine ⟨fun d h => (Option.some.inj h).symm, ?_⟩
  decide +kernel

theorem witness_LaneRecordFields_held : active.settings.drawer.inRange := by
  refine ⟨?_, ?_, ?_, ?_, ?_, ?_, ?_, ?_, ?_, ?_, ?_, ?_, ?_, ?_, ?_⟩ <;> decide

/-- The load at lane `l` with `n` lanes in use. -/
def loading (l : Lane) (n : Nat) : State :=
  let s := granted .loading .settings (.laneSettingsRead l) []
  { s with unit.loadHost.lanesInUse := n, unit.loadRecords := List.replicate l.val (recordAt 0 3 []), unit.load := .laneRecord l }

theorem witness_LaneSettingsRead :
    (loading 0 2).dma.granted.map (fun g => g.req.purpose) = some (.laneSettingsRead 0) ∧ (loading 0 2).run.device = .loading ∧
    (0 : Lane).val + 1 < (loading 0 2).unit.loadHost.lanesInUse ∧ (loading 0 2).dma.waitS = none ∧
    (loading 7 8).dma.granted.map (fun g => g.req.purpose) = some (.laneSettingsRead 7) ∧ (loading 7 8).run.device = .loading ∧
    (loading 7 8).unit.loadHost.lanesInUse ≤ (7 : Lane).val + 1 ∧ (loading 0 1).unit.loadHost.lanesInUse ≤ (0 : Lane).val + 1 ∧
    ((loading 0 1).unit.loadRecords ++ [recordAt 0 3 []])[(0 : Lane).val]? = some (recordAt 0 3 []) ∧
    ((loading 0 1).unit.loadRecords ++ [recordAt 0 3 []])[(1 : Lane).val]? = none := by decide +kernel

theorem witness_LoadDelivery :
    let s : State := { (loading 3 4).setLane 3 active with unit.loadRecords := List.replicate 3 (List.replicate 128 0) }
    s.dma.granted.map (fun g => g.req.purpose) = some (.laneSettingsRead 3) ∧ s.run.device = .loading ∧
    s.unit.loadHost.lanesInUse ≤ (3 : Lane).val + 1 ∧
    (s.unit.loadRecords ++ [recordAt 0 3 []])[(3 : Lane).val]? = some (recordAt 0 3 []) ∧
    (s.unit.loadRecords ++ [recordAt 0 3 []])[(2 : Lane).val]? = some (List.replicate 128 0) ∧
    (loadLane (recordAt 0 3 []) none).1.enable = true ∧ (loadLane (List.replicate 128 0) none).1.enable = false ∧
    (s.lane 3).kb.mode ≠ .scanning ∧ ((s.setLane 3 { active with kb.mode := .scanning }).lane 3).kb.mode = .scanning := by decide +kernel

theorem witness_StatusWritten : ∃ g, (granted .loading .settings .deviceStatusWrite [0]).dma.granted = some g ∧
    completes .statusWriteComplete g.req.purpose ∧ (granted .loading .settings .deviceStatusWrite [0]).run.device = .loading ∧
    ({ granted .loading .settings .deviceStatusWrite [0] with unit.load := .status [] } : State).unit.load = .status [] ∧
    ¬((granted .running .settings .deviceStatusWrite [0]).run.device = .loading ∧
      (granted .running .settings .deviceStatusWrite [0]).unit.load = .status []) :=
  ⟨_, rfl, trivial, rfl, rfl, by decide⟩

theorem witness_ReloadSteps : ∃ g g' a,
    (granted .running .settings (.reloadRead 3) []).dma.granted = some g ∧ g.req.purpose = .reloadRead 3 ∧
    (let s : State := { granted .running .settings (.reloadEcho 3) [0] with
        unit.reload := some (.echo 3 a), walker.current := some (slip 7 3 0 0) };
      s.dma.granted = some g' ∧ g'.req.purpose = .reloadEcho 3 ∧ s.unit.reload = some (.echo 3 a) ∧
        s.walker.current = some (slip 7 3 0 0)) :=
  ⟨_, _, accepted 0 [], rfl, rfl, rfl, rfl, rfl, rfl⟩

theorem witness_ReloadSteps_lane : (loadLane (recordAt 0 3 []) none).1.enable = true ∧
    (loadLane (List.replicate 128 0) none).1.enable = false ∧
    ((lane3 active).lane 3).laneState = .active ∧ (State.reset.lane 3).laneState = .disabled ∧
    ((lane3 { active with laneState := .doze }).lane 3).laneState = .doze ∧
    ((lane3 { active with laneState := .off }).lane 3).laneState = .off := by decide +kernel

/-- A reload of lane 3 in RUNNING whose settings read is in flight. -/
def reloading (u : LaneUnit) : State :=
  { (granted .running .settings (.reloadRead 3) []).setLane 3 u with unit.reload := some (.read 3) }

theorem witness_ReloadDelivery :
    (reloading active).dma.granted.map (fun g => g.req.purpose) = some (.reloadRead 3) ∧
    ((reloading active).lane 3).configured = true ∧ ((reloading active).lane 3).receiversOk ∧ (reloading active).roomy 3 ∧
    (let c := (loadLane (recordAt 0 3 []) none).1; let d := (loadLane (List.replicate 128 0) none).1;
    c.enable = true ∧ c.wake.getLsbD 4 = false ∧ d.enable = false ∧ (loadLane (recordAt 0 3 [16]) none).1.wake.getLsbD 4 = true) ∧
    ((reloading { active with laneState := .doze }).lane 3).laneState = .doze ∧
    ((reloading { active with laneState := .disabled }).lane 3).laneState = .disabled ∧
    ((reloading active).lane 3).kb.mode = .idle ∧
    ((reloading { active with kb.mode := .scanning, kb.capture := some 1 }).lane 3).kb.capture ≠ none ∧
    ((reloading { active with laneState := .doze, kb.mode := .anyKey }).lane 3).kb.mode = .anyKey := by
  refine ⟨rfl, by decide +kernel, ?_, ⟨Or.inl rfl, by decide +kernel, by decide +kernel, by decide +kernel⟩, by decide +kernel, by decide +kernel,
    by decide +kernel, by decide +kernel, by decide +kernel, by decide +kernel⟩
  intro p; cases p <;> exact ⟨by decide +kernel, by decide +kernel⟩

/-- R36, R58, R94: a reload that cuts a frame and takes a key out of the matrix records CUT and then KEY_IMAGE(RELOAD). -/
theorem test_reload_records :
    after (.reloadSettingsReadComplete (recordAt 0 3 [0, 0, 0, 1, 1])) (reloading { framed [0x31, 0x32] with
      kb := { Keyboard.reset with mode := .scanning, passTimer := some 0, image := [0, 5] } })
      (fun t => t.staging.queue.map StagedRecord.body) =
    some [.labelRefused .a (.cut 2), .keyImage .reload 1 1 0] := by decide +kernel

/-- A page link read in flight with a page size and an area length in force. -/
def pageLink (reread rehead episode : Bool) : State :=
  let s := granted .running .journal .pageLinkRead []
  { s with unit.host := { s.unit.host with pageCode := 0, areaLength := 8192 }
           journal := { Journal.reset with state := .needPage, reread := reread, rehead := rehead, episode := episode } }

theorem witness_PageFetch_link :
    (pageLink false false false).dma.granted.map (fun g => g.req.purpose) = some .pageLinkRead ∧ (pageLink false false false).drained = false ∧
    (pageLink false false false).journal.reread = false ∧ (pageLink false false false).journal.rehead = false ∧
    (pageLink true false true).journal.reread = true ∧ (pageLink false true true).journal.rehead = true ∧
    (pageLink false false false).unit.host.areaLength = 8192 ∧ (pageLink false false false).unit.host.pageCode = 0 ∧
    ((7936 : Word32) ≠ 0 ∧ (7936 : Word32).toNat % 64 = 0 ∧ (7936 : Word32).toNat + pageSize 0 = 8192) ∧
    ((8000 : Word32) ≠ 0 ∧ ¬((8000 : Word32).toNat % 64 = 0 ∧ (8000 : Word32).toNat + pageSize 0 ≤ 8192)) ∧
    ((1 : Word32) ≠ 0 ∧ ¬((1 : Word32).toNat % 64 = 0 ∧ (1 : Word32).toNat + pageSize 0 ≤ 8192)) := by decide +kernel

/-- A drained device in STOPPING with a page header read in flight. -/
def drainedHeader : State :=
  let s := granted .stopping .journal (.pageHeaderRead 0x1000) []
  { s with run.walkerDone := true, journal := { Journal.reset with state := .needPage } }

theorem witness_PageFetch_header :
    (granted .running .journal (.pageHeaderRead 0x1000) []).dma.granted.map (fun g => g.req.purpose) = some (.pageHeaderRead 0x1000) ∧
    (granted .running .journal (.pageHeaderRead 0x1000) []).drained = false ∧ (0 : Byte) = 0 ∧ (1 : Byte) ≠ 0 ∧ (255 : Byte) ≠ 0 ∧
    drainedHeader.dma.granted.map (fun g => g.req.purpose) = some (.pageHeaderRead 0x1000) ∧ drainedHeader.drained = true ∧
    drainedHeader.dma.waitJ = none := by decide +kernel

/-- The link reads at the end of the drain: of a link of zero, of a bad link, and of a good one. -/
theorem witness_PageFetch_drained :
    let s : State := { pageLink false true true with run.device := .stopping, run.walkerDone := true, walker.state := .halted }
    s.dma.granted.map (fun g => g.req.purpose) = some .pageLinkRead ∧ s.drained = true ∧ s.unit.host.areaLength = 8192 ∧
    ((8000 : Word32) ≠ 0 ∧ ¬((8000 : Word32).toNat % 64 = 0 ∧ (8000 : Word32).toNat + pageSize s.unit.host.pageCode ≤ s.unit.host.areaLength)) ∧
    ((7936 : Word32) ≠ 0 ∧ (7936 : Word32).toNat % 64 = 0 ∧ (7936 : Word32).toNat + pageSize s.unit.host.pageCode ≤ s.unit.host.areaLength) := by
  decide +kernel

/-- R121, R133: at the end of the drain a link of zero leaves no stale page offset, and a bad link halts a REHEAD_PAGES too. -/
theorem test_fetch_drained :
    let s : State := { pageLink false true true with run.device := .stopping, run.walkerDone := true, journal.stale := some 64 }
    after (.pageLinkReadComplete 0) s (fun t => (t.journal.stale, t.journal.state, t.run.device)) = some (none, .halted, .stopped) ∧
    after (.pageLinkReadComplete 8000) s (fun t => (t.journal.state, t.run.device)) = some (.halted, .stopped) := by decide +kernel

/-- An open page. -/
def page (used count : Nat) (closing : Option CloseReason) : OpenPage :=
  { offset := 0x1000, used := used, count := count, firstSeq := none, openTime := 0, lanes := 0, closing := closing, closeTime := 0
    lingerDue := false }

/-- A FILLING journal writer with an open page. -/
def filling (s : State) (p : OpenPage) : State := { s with journal := { Journal.reset with state := .filling, page := some p } }

/-- A record of lane 3. -/
def record (b : RecordBody) : StagedRecord := ⟨b, some 3, 0, 0⟩

theorem witness_RecordWritten :
    (let s : State := { filling (granted .running .journal .recordWrite [0]) (page 0 0 none) with
      staging.queue := [record (.keyDown 1 1), record (.keyUp 1 0)], unit.host.flowLow := 0 };
    s.dma.granted.map (fun g => g.req.purpose) = some .recordWrite ∧
      s.staging.queue = record (.keyDown 1 1) :: [record (.keyUp 1 0)] ∧ s.journal.page = some (page 0 0 none) ∧
      s.unit.host.flowLow < [record (.keyUp 1 0)].length) ∧
    (let s : State := { filling (granted .running .journal .recordWrite [0]) (page 26 5 none) with
      staging.queue := [record (.keyDown 1 1)], unit.host.flowLow := 0 };
    s.staging.queue = record (.keyDown 1 1) :: [] ∧ ([] : List StagedRecord).length ≤ s.unit.host.flowLow) := by decide +kernel

/-- A record write in flight that brings the fill to `n`, with losses pending in lanes 2 and 5. -/
def leaving (n : Nat) : State :=
  let s := filling (granted .running .journal .recordWrite [0]) (page 0 0 none)
  { (s.setLane 2 { active with seq := 156, losses := #v[12, 0, 0, 0] }).setLane 5 { active with seq := 88, losses := #v[4, 2, 0, 0] } with
    staging := { Staging.reset with queue := List.replicate (n + 1) (record (.keyDown 1 1)), hold := true }
    unit.host := { s.unit.host with flowHigh := 64, flowLow := 32, urgent := 3 } }

/-- 06 chapter 6.8 at 203,400: flow hold is cleared and stays clear; lanes 2 and 5 stage GAP and KEY_IMAGE(RESYNC). -/
theorem test_recovery :
    after .recordWriteComplete (leaving 32)
      (fun t => (t.staging.hold, (t.staging.queue.drop 32).map fun r => (r.body, r.lane, r.seq))) =
    some (false, [(.gap 12 0 0 0, some 2, 156), (.keyImage .resync 0 0 0, some 2, 157),
      (.gap 4 2 0 0, some 5, 88), (.keyImage .resync 0 0 0, some 5, 89)]) := by decide +kernel

theorem witness_RecordWritten_recovery :
    let s := leaving 32
    s.dma.granted.map (fun g => g.req.purpose) = some .recordWrite ∧
    s.staging.queue = record (.keyDown 1 1) :: List.replicate 32 (record (.keyDown 1 1)) ∧ s.journal.page = some (page 0 0 none) ∧
    (List.replicate 32 (record (.keyDown 1 1))).length ≤ s.unit.host.flowLow ∧ s.staging.hold = true ∧
    ((s.lane 2).losses[0] ≠ 0 ∧ (s.lane 5).losses[1] ≠ 0 ∧ ∀ i : Fin 4, (s.lane 3).losses[i] = 0) := by decide +kernel

/-- One state for each reason to close, and that reason in the page after it. -/
theorem witness_RecordWritten_reasons :
    let s (p : OpenPage) (b : RecordBody) (f : FlushPoint) : State := { filling (granted .running .journal .recordWrite [0]) p with
      staging.queue := [record b], unit.host.urgent := 3, journal := { Journal.reset with state := .filling, page := some p, flush := f } }
    let why (s : State) := after .recordWriteComplete s fun t => t.journal.page.map OpenPage.closing
    why (s { page 2 1 none with lingerDue := true } (.drawer .forced .closed .forced false false 1) (.record 0)) = some (some (some .linger)) ∧
    why (s (page 2 1 none) (.drawer .forced .closed .forced false false 1) (.record 0)) = some (some (some .urgent)) ∧
    why (s (page 26 5 none) (.keyDown 1 1) (.record 0)) = some (some (some .flush)) ∧
    why (s (page 26 5 none) (.keyDown 1 1) .none) = some (some (some .full)) ∧
    why (s (page 2 1 none) (.keyDown 1 1) .none) = some (some none) := by decide +kernel

theorem witness_CloseWritten :
    (let s := filling (granted .running .journal .headerBodyWrite [0]) (page 2 1 (some .linger));
    s.dma.granted.map (fun g => g.req.purpose) = some .headerBodyWrite ∧ s.journal.page = some (page 2 1 (some .linger))) ∧
    (let s := filling (granted .running .journal .closedMarkerWrite [1]) (page 2 1 (some .full));
    s.dma.granted.map (fun g => g.req.purpose) = some .closedMarkerWrite ∧ s.journal.page = some (page 2 1 (some .full)) ∧
      (page 2 1 (some .full)).closing = some .full ∧ s.journal.flush ≠ .page) ∧
    (let s : State := { filling (granted .running .journal .closedMarkerWrite [1]) (page 2 1 (some .flush)) with
      journal.flush := .page, walker.current := some (slip 10 0 0 0) };
    s.journal.flush = .page ∧ s.walker.current = some (slip 10 0 0 0)) := by decide +kernel

theorem witness_PageTimers_linger :
    (let s : State := { filling (dev .running) (page 0 0 none) with journal.linger := some 0 };
    s.journal.page = some (page 0 0 none) ∧ (page 0 0 none).closing = none ∧ s.journal.linger = some 0 ∧ (page 0 0 none).count = 0) ∧
    (let s : State := { filling (granted .running .journal .recordWrite [0]) (page 2 1 none) with journal.linger := some 0 };
    s.journal.page = some (page 2 1 none) ∧ s.journal.linger = some 0 ∧ (page 2 1 none).count ≠ 0 ∧ s.dma.busy .journal = true) ∧
    (let s : State := { filling (dev .running) (page 2 1 none) with journal.linger := some 0 };
    s.journal.linger = some 0 ∧ (page 2 1 none).count ≠ 0 ∧ s.dma.busy .journal = false) ∧
    (filling (dev .running) (page 2 1 none)).journal.linger ≠ some 0 := by decide +kernel

theorem witness_PageTimers_recheck :
    (let s : State := { blocks .running .starved .parked with journal.recheck := some 0, walker.recheck := some 0 };
    s.journal.recheck = some 0 ∧ s.journal.state = .starved ∧ s.walker.recheck = some 0 ∧ s.walker.state = .parked) ∧
    (let s : State := { blocks .running .needPage .fetching with journal.recheck := some 0, walker.recheck := some 0 };
    s.journal.recheck = some 0 ∧ s.journal.state = .needPage ∧ s.walker.recheck = some 0 ∧ s.walker.state = .fetching) ∧
    (blocks .running .starved .parked).journal.recheck ≠ some 0 ∧ (blocks .running .starved .parked).walker.recheck ≠ some 0 := by
  decide

/-- A device in STOPPING whose walker has reported: with an empty queue and no loss, the end of the drain. -/
def draining (s : State) : State := { s with run.device := .stopping, run.walkerDone := true }

theorem draining_ends (s : State) (h : s.staging.queue = []) (k : ∀ (l : Lane) (i : Fin 4), (s.lane l).losses[i] = 0) :
    (draining s).drainEnds := ⟨rfl, rfl, h, k⟩

theorem witness_EventEnd :
    (let s : State := { filling (dev .running) (page 26 5 none) with staging.queue := [record (.keyDown 1 1)] };
    s.journal.state = .filling ∧ s.journal.page = some (page 26 5 none) ∧ (page 26 5 none).closing = none ∧ s.dma.busy .journal = false ∧
      s.staging.queue = record (.keyDown 1 1) :: [] ∧ (RecordBody.keyDown 1 1).units = usableUnits s.unit.host.pageCode - 26 ∧
      usableUnits s.unit.host.pageCode - 27 < (RecordBody.keyDown 1 1).units) ∧
    ((draining (filling (dev .running) (page 2 1 none))).drainEnds ∧ (page 2 1 none).count ≠ 0 ∧ (page 0 0 none).count = 0) ∧
    ¬(filling (dev .running) (page 2 1 none)).drainEnds ∧
    ((draining (blocks .running .starved .halted)).drainEnds ∧ (draining (blocks .running .starved .halted)).journal.state = .starved) ∧
    ((draining (blocks .running .broken .halted)).drainEnds ∧ (draining (blocks .running .broken .halted)).journal.state = .broken) ∧
    (filling (granted .running .journal .recordWrite [0]) (page 2 1 none)).dma.busy .journal = true ∧
    (page 2 1 (some .full)).closing.isSome = true ∧ (blocks .running .needPage .halted).journal.state = .needPage := by
  refine ⟨by decide +kernel, ⟨draining_ends _ rfl ?_, by decide, rfl⟩, fun h => ?_, ⟨draining_ends _ rfl ?_, rfl⟩,
    ⟨draining_ends _ rfl ?_, rfl⟩, by decide +kernel, rfl, rfl⟩
  all_goals first | decide +kernel | exact absurd h.1 (by decide)

/-- R126, R127: a record that does not fit the page any more closes it with FULL; one that just fits is written at the units used. -/
theorem test_pump :
    (({ filling (dev .running) (page 26 5 none) with staging.queue := [record (.keyDown 1 1)] } : State).settle.dma.granted.map
      fun g => (g.req.purpose, g.req.offset)) = some (.recordWrite, 0x10F0) ∧
    (({ filling (dev .running) (page 27 5 none) with staging.queue := [record (.keyDown 1 1)] } : State).settle.journal.page.map
      OpenPage.closing) = some (some .full) := by decide +kernel

/-- An order link read in flight. -/
def orderLink (d : DeviceState) (reread : Bool) : State :=
  let s := granted d .walker .orderLinkRead []
  { s with unit.host.areaLength := 8192, walker := { Walker.reset with state := .fetching, reread := reread } }

theorem witness_OrderFetch_link :
    (orderLink .running true).dma.granted.map (fun g => g.req.purpose) = some .orderLinkRead ∧
    (orderLink .running true).run.device ≠ .stopping ∧ (orderLink .stopping false).run.device = .stopping ∧
    ((orderLink .running true).walker.reread || (orderLink .running true).walker.rehead) = true ∧
    (orderLink .running false).unit.host.areaLength = 8192 ∧
    ((8128 : Word32) ≠ 0 ∧ (8128 : Word32).toNat % 64 = 0 ∧ (8128 : Word32).toNat + 64 ≤ 8192) ∧
    ((8192 : Word32) ≠ 0 ∧ ¬((8192 : Word32).toNat % 64 = 0 ∧ (8192 : Word32).toNat + 64 ≤ 8192)) ∧
    ((65 : Word32) ≠ 0 ∧ ¬((65 : Word32).toNat % 64 = 0 ∧ (65 : Word32).toNat + 64 ≤ 8192)) := by decide +kernel

/-- R140: a link of zero clears the walker's stall in STOPPING too. -/
theorem test_fetch_stopping :
    after (.orderLinkReadComplete 0)
      { orderLink .stopping false with unit.stall := { offset := 64, reason := .staleSlip, owner := .walker } }
      (fun t => (t.unit.stall, t.walker.state)) = some (Stall.none, .halted) := by decide +kernel

theorem witness_OrderFetch_slip :
    (granted .running .walker (.slipRead 0x80) []).dma.granted.map (fun g => g.req.purpose) = some (.slipRead 0x80) ∧
    (granted .running .walker (.slipRead 0x80) []).run.device ≠ .stopping ∧
    (granted .stopping .walker (.slipRead 0x80) []).run.device = .stopping ∧
    byteAt ([1] ++ List.replicate 63 0) 0 = 1 ∧ byteAt ([0] ++ List.replicate 63 0) 0 ≠ 1 ∧
    byteAt ([2] ++ List.replicate 63 0) 0 ≠ 1 := by decide +kernel

/-- A TAKEN write in flight for a slip, with four lanes in use. -/
def taking (sl : Slip) : State :=
  let s := granted .running .walker .takenWrite [2]
  { s with unit.host.lanesInUse := 4, walker := { Walker.reset with state := .working, current := some sl, stage := .taking } }

theorem witness_SlipWrites_taken :
    (taking (slip 1 3 0 0)).dma.granted.map (fun g => g.req.purpose) = some .takenWrite ∧
    (taking (slip 1 3 0 0)).walker.current = some (slip 1 3 0 0) ∧
    (slip 0 0 0 0).kind.toNat = 0 ∧ 12 < (slip 13 0 0 0).kind.toNat ∧ (slip 12 9 0 0).kind.toNat = 12 ∧
    (1 ≤ (slip 1 4 0 0).kind.toNat ∧ (slip 9 4 0 0).kind.toNat ≤ 9 ∧
      (taking (slip 1 4 0 0)).unit.host.lanesInUse ≤ (slip 1 4 0 0).lane.toNat) ∧
    ((3 : Lane).val = (slip 1 3 0 0).lane.toNat ∧ (3 : Lane).val < (taking (slip 1 3 0 0)).unit.host.lanesInUse) ∧
    (1 < field1 (slip 4 3 2 0).params 0 ∧ field1 (slip 5 3 1 2).params 0 ≤ 1 ∧ 1 < field1 (slip 5 3 1 2).params 1 ∧
      field1 (slip 4 3 0 1).params 1 ≤ 1 ∧ field1 (slip 8 3 1 0).params 0 = 1 ∧ field1 (slip 8 3 3 0).params 0 = 3 ∧
      field1 (slip 8 3 2 0).params 0 = 2 ∧ 3 < field1 (slip 8 3 4 0).params 0 ∧ field1 (slip 9 3 0 0).params 0 ≤ 1) := by decide +kernel

theorem witness_SlipWrites :
    (let s : State := { granted .running .walker .slipBodyWrite [0] with
      walker := { Walker.reset with state := .working, current := some (slip 1 3 0 0), stage := .body (accepted 0 []) } };
    s.dma.granted.map (fun g => g.req.purpose) = some .slipBodyWrite ∧ s.walker.current = some (slip 1 3 0 0) ∧
      s.walker.stage = .body (accepted 0 [])) ∧
    (let s : State := { granted .stopping .walker .slipStateWrite [3] with
      walker := { Walker.reset with state := .working, current := some (slip 1 3 0 0), stage := .finish } };
    s.dma.granted.map (fun g => g.req.purpose) = some .slipStateWrite ∧ s.walker.current = some (slip 1 3 0 0)) := by decide +kernel

/-- Example 8.5: the body of slip B of 30,002, OK with the detail CLOSED and the result 62 and 820. -/
theorem test_body_bytes :
    (accepted Condition.closed.code (byte4 62 ++ byte4 820)).body 30002 =
      [0, 0, 0, 0, 0x32, 0x75, 0, 0, 62, 0, 0, 0, 0x34, 3, 0, 0, 0, 0, 0, 0, 0, 0, 0, 0, 0, 0, 0, 0] ∧
    (refusal .portOff 0).body 1 = [11, 0, 0, 0, 1] ++ List.replicate 23 0 := by decide

theorem witness_OrdersWhenHanded : (lane3 active).walker.handed = none ∧
    (handing (lane3 active) .flush).walker.handed ≠ some (.drawerKick 3) := by decide

/-- A state in which `handing` holds hands the order on. -/
theorem handing_hands (s : State) (o : Order) : (handing s o).hands o (slip 1 3 0 0) := ⟨rfl, rfl, rfl⟩

theorem witness_roomy : (lane3 active).roomy 3 :=
  ⟨Or.inl rfl, by decide +kernel, by decide +kernel, by decide +kernel⟩

/-- A dozing lane that every source wakes, with room. -/
def dozing : LaneUnit := { active with laneState := .doze, settings.wake := 0x1F#5 }

theorem witness_WokenBy :
    (lane3 dozing).roomy 3 ∧ (∀ w : WakeSource, (lane3 dozing).wakes 3 w = true) ∧
    (∀ w : WakeSource, (lane3 active).wakes 3 w = false) ∧ (lane3 dozing).wakeRecords 3 .drawer = [.laneState .active (.wake .drawer)] :=
  ⟨⟨Or.inl rfl, by decide +kernel, by decide +kernel, by decide +kernel⟩, fun w => by cases w <;> decide +kernel,
    fun w => by cases w <;> decide +kernel, by decide +kernel⟩

/-- In STOPPING a lane has room too, and produces its classes 2 and 3. -/
theorem witness_roomy_stopping : ({ lane3 dozing with run.device := .stopping } : State).roomy 3 :=
  ⟨Or.inr rfl, by decide +kernel, by decide +kernel, by decide +kernel⟩

theorem witness_DrawerKick :
    (let u := (handing (lane3 active) (.drawerKick 3)).lane 3;
    u.laneState = .active ∧ u.settings.drawer.enable = true ∧ u.keylock.position ≠ .lock ∧ u.drawer.latch = false ∧
      u.drawer.cond = .closed) ∧
    ((lane3 LaneUnit.reset).lane 3).laneState = .disabled ∧
    ((lane3 { active with drawer := { active.drawer with cond := .jammed } }).lane 3).drawer.cond = .jammed ∧
    ((lane3 { active with drawer := { active.drawer with latch := true } }).lane 3).drawer.latch = true := by decide +kernel

theorem witness_LatchOrders :
    (let d := ((handing (lane3 { active with drawer := { active.drawer with cond := .kicking } }) (.drawerLockout 3)).lane 3).drawer;
    d.latch = false ∧ d.cond = .kicking) ∧
    ((lane3 { active with drawer := { active.drawer with latch := true } }).lane 3).drawer.latch = true ∧
    ((lane3 active).lane 3).keylock.position = .register ∧
    (let u := (handing (lane3 { active with keylock := { active.keylock with position := .manager } }) (.drawerRelease 3)).lane 3;
    u.keylock.position = .manager ∧ u.drawer.latch = false ∧ u.drawer.history = []) := by decide +kernel

theorem witness_ScannerOrders :
    (let u := (handing (lane3 active) (.scannerSet 3 .a true)).lane 3;
    (u.portSettings .b).enable = false ∧ (u.portSettings .a).enable = true ∧ u.laneState = .active ∧ (u.port .a).orderEnable = true ∧
      (u.port .a).frame ≠ .assembling) ∧
    (((lane3 (framed [0x31])).lane 3).port .a).frame = .assembling ∧
    ((lane3 { active with laneState := .off }).lane 3).laneState = .off ∧
    (((lane3 active).lane 3).port .b).orderEnable = false := by decide +kernel

theorem witness_KeyImageRead : (handing (lane3 active) (.keyImageRead 3)).hands (.keyImageRead 3) (slip 1 3 0 0) ∧
    (handing (lane3 active) (.keyImageRead 3)).run.device = .running ∧
    (handing (lane3 active) (.keyImageRead 3)).staging.queue.length < 96 ∧
    ((handing (lane3 active) (.keyImageRead 3)).lane 3).keysOk ∧
    ((handing (lane3 active) (.keyImageRead 3)).lane 3).kb.mode ≠ .scanning :=
  ⟨handing_hands _ _, rfl, by decide +kernel, by unfold LaneUnit.keysOk; decide +kernel, by decide +kernel⟩

/-- Lane 3 with the counter LABELS_OK at `n`. -/
def counted (n : Nat) (noted inhibit : BitVec 8) : State :=
  lane3 { active with
    counters := (Vector.replicate 8 0).set 0 (BitVec.ofNat 16 n), noted := noted, settings := { active.settings with inhibit := inhibit } }

/-- R165, R166: 65535 wraps to 0, and 49152 is reached once. -/
theorem test_counters :
    (((counted 65535 0 0).count 3 .labelsOk).lane 3).counters[0] = 0 ∧
    (((counted 49151 0 0).count 3 .labelsOk).lane 3).noted = 1 ∧ ((counted 49151 0 0).count 3 .labelsOk).run.causes = 0x20 ∧
    ((counted 49151 1 0).count 3 .labelsOk).run.causes = 0 ∧ ((counted 49152 0 0).count 3 .labelsOk).run.causes = 0 := by decide +kernel

theorem witness_LaneCounters : (handing (lane3 active) (.countersRead 3 true)).hands (.countersRead 3 true) (slip 1 3 0 0) ∧
    (handing (lane3 active) (.countersRead 3 false)).hands (.countersRead 3 false) (slip 1 3 0 0) ∧
    ((counted 0 0 1).lane 3).settings.inhibit.getLsbD 0 = true ∧ ((counted 0 0 0).lane 3).settings.inhibit.getLsbD 0 = false ∧
    ((counted 49151 0 0).lane 3).counters[0].toNat + 1 = 49152 ∧ ((counted 49151 0 0).lane 3).noted.getLsbD 0 = false ∧
    ((counted 49150 0 0).lane 3).counters[0].toNat + 1 ≠ 49152 ∧ ((counted 49151 1 0).lane 3).noted.getLsbD 0 = true :=
  ⟨handing_hands _ _, handing_hands _ _, by decide +kernel, by decide +kernel, by decide +kernel, by decide +kernel, by decide +kernel,
    by decide +kernel⟩

theorem witness_ReloadSteps_orders : (handing (lane3 active) (.laneReload 3)).hands (.laneReload 3) (slip 1 3 0 0) ∧
    (handing (lane3 active) .policyLock).hands .policyLock (slip 1 3 0 0) ∧
    (handing (lane3 active) (.laneReload 3)).dma.busy .settings = false ∧ (handing (lane3 active) (.laneReload 3)).run.device = .running :=
  ⟨handing_hands _ _, handing_hands _ _, by decide +kernel, rfl⟩

theorem witness_LaneStateChanges :
    ((lane3 LaneUnit.reset).lane 3).laneState = .disabled ∧ ((lane3 active).lane 3).laneState = .active ∧
    ((lane3 { active with laneState := .off }).lane 3).laneState ≠ .disabled ∧
    ((lane3 { active with laneState := .off }).lane 3).laneState ≠ .active ∧
    (let s := lane3 { active with idle := some 0 };
    (s.lane 3).idle = some 0 ∧ (s.lane 3).laneState = .active ∧ s.run.device = .running) ∧
    ((lane3 active).lane 3).idle ≠ some 0 := by decide +kernel

/-- 03 chapter 3.11 at 5407: LANE_STATE to OFF with 6 characters held at port B: LANE_STATE(ORDER), then CUT, counted. -/
theorem test_lane_state_off :
    after (.laneState 3 .off)
      (handing (lane3 { active with
        settings.portB := active.settings.portA
        portB := { active.portA with frame := .assembling, text := List.replicate 6 0x31 } }) (.laneState 3 .off))
      (fun t => ((t.lane 3).portB.on, (t.lane 3).portB.frame, (t.lane 3).portB.text, (t.lane 3).counters[1],
        t.staging.queue.map StagedRecord.body)) =
    some (false, .waiting, [], 1, [.laneState .off .order, .labelRefused .b (.cut 6)]) := by decide +kernel

theorem witness_FlushOrder :
    (let s : State := { handing (lane3 active) .flush with staging.queue := [record (.keyDown 1 1)] };
    s.staging.queue = record (.keyDown 1 1) :: []) ∧
    (handing (lane3 active) .flush).staging.queue = [] ∧ (handing (lane3 active) .flush).journal.page = none ∧
    (handing (filling (lane3 active) (page 0 0 none)) .flush).journal.page = some (page 0 0 none) ∧
    (page 0 0 none).closing = none ∧ (page 0 0 none).count = 0 ∧ (page 2 1 (some .full)).closing.isSome = true ∧
    (page 2 1 none).closing = none ∧ (page 2 1 none).count ≠ 0 := by decide +kernel

theorem witness_Marks :
    (let s := handing (lane3 active) (.journalMark 7); s.staging.queue.length < 96 ∧ s.run.device = .running) ∧
    (let s : State := { handing (lane3 active) (.journalMark 7) with staging.queue := List.replicate 96 (record (.keyDown 1 1)) };
    ¬(s.staging.queue.length < 96 ∧ (s.run.device = .running ∨ s.run.device = .stopping))) ∧
    (let s : State := { handing (lane3 active) .flush with
      staging.markWaiting := some 7, staging.queue := List.replicate 95 (record (.keyDown 1 1)) };
    s.staging.markWaiting = some 7 ∧ s.walker.current = some (slip 1 3 0 0) ∧ s.staging.queue.length < 96) ∧
    (lane3 active).staging.markWaiting = none := by decide +kernel

theorem witness_KeylockReader_readings :
    oneContact 0 = false ∧ oneContact 15 = false ∧
    (let k := ((lane3 active).lane 3).keylock;
    k.running = true ∧ k.contacts ≠ contactsOf .register ∧ k.position = .register ∧ Position.service ≠ k.position ∧
      k.contacts ≠ 3 ∧ k.contacts = 0) ∧
    (State.reset.lane 3).keylock.running = false ∧
    ((lane3 { active with keylock := { active.keylock with contacts := 8 } }).lane 3).keylock.contacts = contactsOf .service := by
  decide +kernel

theorem witness_KeylockReader_adopted :
    (let k := ((lane3 { active with keylock := { active.keylock with
        position := .lock, candidate := some .service, settle := some 0 } }).lane 3).keylock;
    k.settle = some 0 ∧ k.candidate = some .service ∧ k.position = .lock ∧ Position.service ≠ .lock) ∧
    (let k := ((lane3 { active with keylock := { active.keylock with indet := some 0 } }).lane 3).keylock;
    k.indet = some 0 ∧ k.position ≠ .lock) ∧
    (let k := ((lane3 { active with keylock := { active.keylock with position := .lock, indet := some 0 } }).lane 3).keylock;
    k.indet = some 0 ∧ k.position = .lock) ∧
    ((lane3 active).lane 3).keylock.settle ≠ some 0 ∧ ((lane3 active).lane 3).keylock.indet ≠ some 0 := by decide +kernel

/-- R7, R17: a dozing lane that leaves LOCK and wakes by it: LANE_STATE, KEYLOCK, and directly KEY_IMAGE(RESYNC). -/
theorem test_keylock_leaves_lock :
    after (.keylockSettleExpiry 3)
      (lane3 { dozing with keylock := { active.keylock with position := .lock, candidate := some .manager, settle := some 0 } })
      (fun t => (t.staging.queue.map StagedRecord.body, t.staging.queue.map StagedRecord.seq)) =
    some ([.laneState .active (.wake .keylock), .keylock .manager .lock false, .keyImage .resync 0 0 0], [0, 1, 2]) := by decide +kernel

theorem witness_Pass :
    (let u := (lane3 ghostLane).lane 3;
    u.kb.mode = .scanning ∧ u.kb.passTimer = some 0 ∧ u.kb.downKeys.Nodup ∧
      (u.settings.usesKey 50 = true ∧ ghostRaw.getLsbD 50 ≠ u.kb.isDown 50 ∧ u.settings.debounce ≤ u.kb.counts[50] + 1) ∧
      (u.settings.usesKey 0 = true ∧ (BitVec.ofNat 128 1).getLsbD 0 ≠ u.kb.isDown 0 ∧ ¬u.settings.debounce ≤ u.kb.counts[0] + 1) ∧
      ghostRaw.getLsbD 127 = u.kb.isDown 127) ∧
    ((lane3 active).lane 3).kb.mode ≠ .scanning := by decide +kernel

/-- Lane 3 scanning, with an image, the change count of key 53 at 2, and a rollover limit. -/
def keyLane (image : List Key) (rollover : Nat) (isolated : Bool) : LaneUnit := { ghostLane with
  settings.rollover := rollover
  settings.isolated := isolated
  kb := { ghostLane.kb with image := image, counts := (Vector.replicate 128 0).set 53 2 } }

/-- A raw reading with the given keys down. -/
def rawOf (ks : List Key) : BitVec 128 := BitVec.ofNat 128 (ks.map fun k => 2 ^ k.val).sum

/-- The premises of PassOneKey for key 53, decided. -/
def onlyKey53 (u : LaneUnit) (raw : BitVec 128) : Bool :=
  u.kb.mode == .scanning && u.kb.passTimer == some 0 && decide u.kb.downKeys.Nodup && u.kb.blocked == [] && u.settings.usesKey 53 &&
    (raw.getLsbD 53 != u.kb.isDown 53) && decide (u.settings.debounce ≤ u.kb.counts[53] + 1) &&
    (List.finRange 128).all fun j => j == 53 || raw.getLsbD j.val == u.kb.isDown j

theorem witness_PassOneKey_accepted : onlyKey53 (keyLane [18] 2 false) (rawOf [18, 53]) = true ∧
    (keyLane [18] 2 false).kb.isDown 53 = false ∧ (keyLane [18] 2 false).kb.image.length < (keyLane [18] 2 false).settings.rollover := by
  decide +kernel

theorem witness_PassOneKey_rollover : onlyKey53 (keyLane [18, 21] 2 false) (rawOf [18, 21, 53]) = true ∧
    (keyLane [18, 21] 2 false).settings.rollover ≤ (keyLane [18, 21] 2 false).kb.image.length := by decide +kernel

theorem witness_PassOneKey_ghost : onlyKey53 (keyLane [18, 21, 50] 3 false) (rawOf [18, 21, 50, 53]) = true ∧
    (keyLane [18, 21, 50] 3 false).settings.isolated = false ∧
    ∃ a b x, a ∈ (keyLane [18, 21, 50] 3 false).kb.image ∧ b ∈ (keyLane [18, 21, 50] 3 false).kb.image ∧
      x ∈ (keyLane [18, 21, 50] 3 false).kb.image ∧ keyRow a = keyRow 53 ∧ keyCol a ≠ keyCol 53 ∧ keyCol b = keyCol 53 ∧
      keyRow b ≠ keyRow 53 ∧ keyRow x = keyRow b ∧ keyCol x = keyCol a :=
  ⟨by decide +kernel, rfl, 50, 21, 18, by decide +kernel, by decide +kernel, by decide +kernel, by decide +kernel, by decide +kernel,
    by decide +kernel, by decide +kernel, by decide +kernel, by decide +kernel⟩

theorem witness_PassOneKey_up : onlyKey53 (keyLane [18, 53] 2 true) (rawOf [18]) = true ∧ (keyLane [18, 53] 2 true).kb.isDown 53 = true ∧
    (keyLane [18, 53] 2 true).keylock.position ≠ .lock ∧ (keyLane [18, 53] 2 true).kb.capture = none := by decide +kernel

/-- Lane 3 on a pass that takes key 18 out of the image, finds key 53 blocked, and brings key 50. -/
def threeStages : LaneUnit := { keyLane [18] 1 true with
  kb := { (keyLane [18] 1 true).kb with
    blocked := [(53, .rollover)], counts := ((Vector.replicate 128 0).set 18 2).set 50 2 } }

theorem witness_PassOrder : ∃ w1 w2 w3 : KeyWork,
    let u := (lane3 threeStages).lane 3
    let flips (k : Key) : Bool := u.settings.usesKey k && (rawOf [50, 53]).getLsbD k.val != u.kb.isDown k &&
      decide (u.settings.debounce ≤ u.kb.counts[k.val] + 1)
    let keys (down : Bool) : List Key := (List.finRange 128).filter fun k => flips k && u.kb.isDown k != down
    u.kb.mode = .scanning ∧ u.kb.passTimer = some 0 ∧ u.keysOnce ∧
    KeyWork.each KeyWork.Up (keys false) { image := u.kb.image, blocked := u.kb.blocked, records := [] } w1 ∧
    KeyWork.each (KeyWork.Again u.settings) (w1.blocked.map Prod.fst) w1 w2 ∧
    KeyWork.each (KeyWork.Down u.settings) (keys true) w2 w3 ∧
    w3.records = [.keyUp 18 0, .keyDown 53 1, .keyBlocked 50 .rollover 1] ∧
    u.keylock.position ≠ .lock ∧ u.kb.capture = none ∧ (lane3 threeStages).run.device = .running ∧ u.losses[0] = 0 ∧ u.losses[1] = 0 ∧
    (lane3 threeStages).staging.queue.length + w3.records.length ≤ 88 := by
  refine ⟨{ image := [], blocked := [(53, .rollover)], records := [.keyUp 18 0] },
    { image := [53], blocked := [], records := [.keyUp 18 0, .keyDown 53 1] },
    { image := [53], blocked := [(50, .rollover)], records := [.keyUp 18 0, .keyDown 53 1, .keyBlocked 50 .rollover 1] }, ?_⟩
  intro u flips keys
  have hf : keys false = [18] := by decide +kernel
  have ht : keys true = [50] := by decide +kernel
  have hi : u.settings.isolated = true := by decide +kernel
  have hr : u.settings.rollover = 1 := by decide +kernel
  rw [hf, ht]
  refine ⟨by decide +kernel, by decide +kernel, by unfold LaneUnit.keysOnce; decide +kernel, ⟨_, ⟨fun _ => rfl, fun h => absurd (by decide +kernel) h⟩, ?_⟩,
    ⟨_, ⟨?_, fun _ => rfl⟩, ?_⟩, ⟨_, ⟨?_, ?_⟩, rfl⟩, rfl, by decide +kernel, by decide +kernel, rfl, by decide +kernel,
    by decide +kernel, by decide +kernel⟩
  · exact rfl
  · rintro ⟨why, h⟩
    cases why <;> simp [KeyWork.refuses, hi, hr] at h
  · exact rfl
  · intro why h
    cases why <;> simp [KeyWork.refuses, hi, hr] at h ⊢
  · intro h
    exact absurd (h .rollover) (by simp [KeyWork.refuses, hi, hr])

theorem witness_KeyboardEvents_timers :
    ((lane3 { active with kb.capture := some 0 }).lane 3).kb.capture = some 0 ∧ ((lane3 active).lane 3).kb.capture ≠ some 0 ∧
    ((lane3 { active with kb.typematic := some { key := 50, repeating := false, left := 0 } }).lane 3).kb.typematic =
      some { key := 50, repeating := false, left := 0 } ∧
    ((lane3 active).lane 3).kb.typematic = none ∧ ((lane3 active).lane 3).keylock.position ≠ .lock ∧
    (State.reset.lane 3).keylock.position = .lock := by decide +kernel

/-- A dozing lane 3 that senses keys, at a stage and a count. -/
def sensing (stage : AnyStage) (count : Nat) : LaneUnit := { active with
  laneState := .doze
  settings.wake := 1
  kb := { active.kb with mode := .anyKey, passTimer := some 0, anyStage := stage, anyCount := count } }

theorem witness_KeyboardEvents_anyKey :
    (let u := (lane3 (sensing .waitClear 2)).lane 3;
    u.kb.mode = .anyKey ∧ u.kb.passTimer = some 0 ∧ u.kb.anyStage = .waitClear ∧ u.settings.debounce ≤ u.kb.anyCount + 1) ∧
    (let u := (lane3 (sensing .waitClear 1)).lane 3; u.kb.anyStage = .waitClear ∧ u.kb.anyCount + 1 < u.settings.debounce) ∧
    (let u := (lane3 (sensing .armed 2)).lane 3; u.kb.anyStage = .armed ∧ u.settings.debounce ≤ u.kb.anyCount + 1) ∧
    (let u := (lane3 (sensing .armed 1)).lane 3; u.kb.anyStage = .armed ∧ u.kb.anyCount + 1 < u.settings.debounce) ∧
    (let s := lane3 { sensing .armed 0 with kb := { (sensing .armed 0).kb with detected := true } };
    (s.lane 3).kb.detected = true ∧ (s.lane 3).configured = true ∧ (s.lane 3).laneState = .doze ∧
      (s.lane 3).settings.wake.getLsbD 0 = true ∧ s.run.device = .running ∧ (s.lane 3).kb.mode ≠ .scanning) ∧
    (let s := { lane3 { sensing .armed 0 with kb := { (sensing .armed 0).kb with detected := true } } with run.device := .stopped };
    (s.lane 3).kb.detected = true ∧ (s.lane 3).kb.mode = .anyKey ∧
      ¬((s.lane 3).laneState = .doze ∧ (s.lane 3).settings.wake.getLsbD 0 = true ∧
        (s.run.device = .running ∨ s.run.device = .stopping))) ∧
    ((lane3 active).lane 3).kb.detected = false ∧ ((lane3 active).lane 3).kb.mode ≠ .anyKey := by decide +kernel

/-- Port A of lane 3 in a frame state. -/
def portIn (frame : FrameState) (t : List Byte) : LaneUnit := { active with portA := { active.portA with frame := frame, text := t } }

theorem witness_ReadyOutput : (lane3 active).ready 3 .a = true ∧ (lane3 active).ready 3 .b = false ∧ State.reset.ready 3 .a = false := by
  decide +kernel

/-- The premise `ready` of CharacterReceived for port A of lane 3. -/
theorem witness_CharacterReceived_ready :
    (lane3 active).run.device = .running ∧ ((lane3 active).lane 3).laneState = .active ∧
    ((lane3 active).lane 3).keylock.position ≠ .lock ∧ (((lane3 active).lane 3).portSettings .a).enable = true ∧
    (((lane3 active).lane 3).port .a).orderEnable = true ∧ (lane3 active).staging.hold = false ∧
    ((lane3 active).lane 3).configured = true ∧ (((lane3 active).lane 3).port .a).on = true ∧
    (((lane3 active).lane 3).port .a).lineLow = false ∧ (((lane3 active).lane 3).port .a).frame = .waiting := by decide +kernel

theorem witness_CharacterReceived :
    (let f := (((lane3 active).lane 3).portSettings .a).format;
    receiveChar f (.sampled 0x0D true) = (0x0D, false) ∧ (((lane3 active).lane 3).portSettings .a).terminator = 0x0D ∧
      (receiveChar f (.sampled 0x0D false)).2 = true ∧ (receiveChar f (.sampled 0x31 true)).1 ≠ 0x0D ∧ receiveChar f .heldLow = (0, true)) ∧
    ((State.reset.lane 3).port .a).on = false ∧
    (((lane3 { active with portA := { active.portA with lineLow := true } }).lane 3).port .a).lineLow = true ∧
    (({ lane3 active with staging.hold := true } : State).staging.hold = true) ∧
    (dev .stopping).run.device ≠ .running ∧
    (let q := ((lane3 (portIn .assembling (List.replicate 48 0x31))).lane 3).port .a;
    q.on = true ∧ q.lineLow = false ∧ q.frame = .assembling ∧ 48 ≤ q.text.length) ∧
    (let q := ((lane3 (portIn .assembling [])).lane 3).port .a; q.frame = .assembling ∧ q.text = []) ∧
    (let q := ((lane3 (portIn .discarding [])).lane 3).port .a; q.on = true ∧ q.lineLow = false ∧ q.frame = .discarding) := by
  decide +kernel

/-- A frame at port A whose terminator arrives, with a text of `n` characters. -/
def judged (n : Nat) : LaneUnit := framed (List.replicate n 0x31)

theorem witness_LabelJudged :
    (let u := (lane3 (judged 4)).lane 3; let q := u.port .a; let c := u.portSettings .a;
    q.on = true ∧ q.lineLow = false ∧ q.frame = .assembling ∧ q.text ≠ [] ∧
      c.isTerminator (receiveChar c.format (.sampled 0x0D true)).1 (receiveChar c.format (.sampled 0x0D true)).2 = true ∧
      u.keylock.position ≠ .lock ∧ q.damaged = false ∧ q.tooLong = false ∧ c.minLength = q.text.length ∧ c.check = false ∧
      u.acceptor.last = none) ∧
    (let u := (lane3 (judged 3)).lane 3; (u.port .a).text.length < (u.portSettings .a).minLength) ∧
    (let u := (lane3 (checked (judged 8))).lane 3; let q := u.port .a;
    (u.portSettings .a).check = true ∧ (q.text.all fun b => decide (0x30 ≤ b.toNat ∧ b.toNat ≤ 0x39)) = true ∧ q.text.length = 8 ∧
      ¬(byteAt q.text 7).toNat = 0x30 +
        (10 - (∑ i ∈ Finset.range 7, ((byteAt q.text i).toNat - 0x30) * if (6 - i) % 2 = 0 then 3 else 1) % 10) % 10) ∧
    ((lane3 { judged 4 with keylock := { active.keylock with position := .lock } }).lane 3).keylock.position = .lock ∧
    (((lane3 { judged 4 with portA := { (judged 4).portA with damaged := true } }).lane 3).port .a).damaged = true ∧
    (((lane3 { judged 4 with portA := { (judged 4).portA with tooLong := true } }).lane 3).port .a).tooLong = true := by decide +kernel

theorem witness_LabelJudged_duplicate :
    (let s := lane3 { judged 4 with
      acceptor := { last := some { text := List.replicate 4 0x31, port := .b, time := 0 }, keySince := false } };
    (s.lane 3).acceptor.keySince = false ∧ ((s.lane 3).acceptor.last.map LastLabel.text) = some ((s.lane 3).port .a).text ∧
      (s.run.clock - 0).toNat < msTicks (s.lane 3).settings.dupWindowMs) := by decide +kernel

/-- Port A of lane 3 with its gap timer due in a frame state. -/
def gapDue (frame : FrameState) : ScanPort := ((lane3 { active with portA := { active.portA with frame := frame, gap := some 0 } }).lane 3).port .a

/-- Port A of lane 3 in a tone pattern at a step. -/
def toneAt (bad : Bool) (step left : Nat) : ScanPort :=
  ((lane3 { active with portA := { active.portA with
    tone := some { bad := bad, step := step, period := 82, left := left } } }).lane 3).port .a

theorem witness_PortTimers :
    ((gapDue .assembling).gap = some 0 ∧ (gapDue .assembling).frame = .assembling) ∧ (gapDue .discarding).frame = .discarding ∧
    (gapDue .waiting).frame = .waiting ∧ (((lane3 active).lane 3).port .a).gap ≠ some 0 ∧
    (toneAt false 0 0).tone = some { bad := false, step := 0, period := 82, left := 0 } ∧
    (toneAt true 4 0).tone = some { bad := true, step := 4, period := 82, left := 0 } ∧
    (toneAt true 3 0).tone = some { bad := true, step := 3, period := 82, left := 0 } ∧
    (toneAt true 0 0).tone = some { bad := true, step := 0, period := 82, left := 0 } ∧
    (((lane3 active).lane 3).port .a).tone = none := by decide +kernel

/-- The drawer of lane 3 as changed by `f`. -/
def drawer3 (f : Drawer → Drawer) : Drawer := ((lane3 { active with drawer := f active.drawer }).lane 3).drawer

theorem witness_DrawerSensor :
    (let d := drawer3 id; d.rawOpen ≠ true ∧ d.running = true ∧ d.measuring = none ∧ true ≠ d.settledOpen ∧ d.settle ≠ some 0) ∧
    (let d := drawer3 fun d => { d with rawOpen := true }; d.rawOpen ≠ false ∧ false = d.settledOpen) ∧
    (State.reset.lane 3).drawer.running = false ∧ (drawer3 fun d => { d with measuring := some 2 }).measuring ≠ none ∧
    (let d := drawer3 fun d => { d with settle := some 0, rawOpen := true, cond := .kicking };
    d.settle = some 0 ∧ d.rawOpen = true ∧ d.cond = .kicking) ∧
    (drawer3 fun d => { d with settle := some 0, rawOpen := true, cond := .jammed }).cond = .jammed ∧
    (let u := (lane3 { active with
        keylock := { active.keylock with position := .service }, drawer := { active.drawer with settle := some 0, rawOpen := true } }).lane 3;
    u.drawer.settle = some 0 ∧ u.drawer.rawOpen = true ∧ u.drawer.cond = .closed ∧ u.keylock.position = .service) ∧
    (let d := drawer3 fun d => { d with settle := some 0, settledOpen := true, cond := .ajar };
    d.settle = some 0 ∧ d.rawOpen = false ∧ d.cond = .ajar) ∧
    (let d := drawer3 fun d => { d with settle := some 0, rawOpen := true, cond := .absent };
    d.settle = some 0 ∧ d.rawOpen = true ∧ d.cond = .absent) := by decide +kernel

theorem witness_ForcedOpening :
    (let u := (lane3 { active with drawer := { active.drawer with settle := some 0, rawOpen := true, history := [0, 0] } }).lane 3;
    u.drawer.settle = some 0 ∧ u.drawer.rawOpen = true ∧ u.drawer.cond = .closed ∧ u.keylock.position ≠ .service ∧
      u.settings.drawer.lockoutCount = 2 ∧ u.drawer.latch = false ∧ u.drawer.history.length + 1 = 3) := by decide +kernel

theorem witness_DrawerTimers :
    (drawer3 fun d => { d with pulse := some 0 }).pulse = some 0 ∧ (drawer3 id).pulse ≠ some 0 ∧
    (let d := drawer3 fun d => { d with confirm := some 0, cond := .kicking }; d.confirm = some 0 ∧ d.cond = .kicking) ∧
    (drawer3 id).confirm ≠ some 0 ∧ (drawer3 id).cond ≠ .kicking ∧
    (let d := drawer3 fun d => { d with alert := some 0, stage := .alertPending, cond := .isOpen };
    d.alert = some 0 ∧ d.stage = .alertPending ∧ d.cond = .isOpen) ∧
    (let d := drawer3 fun d => { d with alert := some 0, stage := .alertPending, cond := .forced };
    d.alert = some 0 ∧ d.stage = .alertPending ∧ d.cond ≠ .isOpen) ∧
    (let d := drawer3 fun d => { d with faultMark := some 0, stage := .faultPending }; d.faultMark = some 0 ∧ d.stage = .faultPending) ∧
    (drawer3 id).alert ≠ some 0 ∧ (drawer3 id).faultMark ≠ some 0 ∧ (drawer3 id).stage ≠ .alertPending := by decide +kernel

theorem witness_DrawerTimers_presence :
    (drawer3 fun d => { d with presence := some 0 }).presence = some 0 ∧ (drawer3 id).presence ≠ some 0 ∧ (drawer3 id).measuring ≠ some 0 ∧
    (let d := drawer3 fun d => { d with measuring := some 0 }; d.measuring = some 0 ∧ d.failCount = 0 ∧ d.cond ≠ .absent) ∧
    (let d := drawer3 fun d => { d with measuring := some 0, failCount := 1 };
    d.measuring = some 0 ∧ 1 ≤ d.failCount ∧ d.cond ≠ .absent) ∧
    (let d := drawer3 fun d => { d with measuring := some 0, failCount := 2, cond := .absent };
    1 ≤ d.failCount ∧ d.cond = .absent ∧ d.settledOpen = false) ∧
    (drawer3 fun d => { d with measuring := some 0, failCount := 2, cond := .absent, settledOpen := true }).settledOpen = true ∧
    (true = true ∧ false = false) := by decide +kernel

theorem witness_LaneEventFrame : ∃ t, exec (.kickPulseEnd 3) (lane3 active) = .next t ∧ laneOf (.kickPulseEnd 3) = some 3 :=
  ⟨_, rfl, rfl⟩

theorem witness_OfferRule :
    (lane3 active).run.device = .running ∧ (dev .stopped).run.device ≠ .running ∧ (dev .stopping).run.device = .stopping ∧
    2 ≤ (RecordBody.gap 1 0 0 0).cls ∧ (RecordBody.keyDown 1 1).cls < 2 ∧
    (lane3 active).staging.queue.length < 88 ∧ ((lane3 active).lane 3).losses[0] = 0 ∧ ((lane3 active).lane 3).losses[1] = 0 ∧
    ¬({ lane3 active with staging.queue := List.replicate 88 (record (.keyDown 1 1)) } : State).staging.queue.length < 88 ∧
    ({ lane3 active with staging.queue := List.replicate 95 (record (.keyDown 1 1)) } : State).staging.queue.length < 96 ∧
    ¬({ lane3 active with staging.queue := List.replicate 96 (record (.keyDown 1 1)) } : State).staging.queue.length < 96 := by
  decide +kernel

theorem witness_MemoryWrites : ∃ t t' t'',
    exec .recordWriteComplete (granted .running .journal .recordWrite [1]) = .next t ∧
    (∃ g, (granted .running .journal .recordWrite [1]).dma.granted = some g ∧ completes .recordWriteComplete g.req.purpose) ∧
    exec .dmaAbort (granted .running .journal .recordWrite [1]) = .next t' ∧
    exec .halt State.reset = .next t'' ∧ isReset .halt = false ∧ Instr.halt ≠ .dmaAbort ∧
    (∀ g, State.reset.dma.granted = some g → ¬completes .halt g.req.purpose) :=
  ⟨_, _, _, rfl, ⟨_, rfl, trivial⟩, rfl, rfl, rfl, nofun, nofun⟩

/-- A state whose rewrites are those given, with nothing asked for yet. -/
def rewriting (d : DeviceState) (device : Bool) (lanes : Lane → Bool) : State :=
  { dev d with unit.devRewrite := device, lanes := Vector.ofFn fun l => { active with rewrite := lanes l } }

theorem witness_RewriteOrder :
    ¬(rewriting .running true fun _ => true).drainEnds ∧ (rewriting .running true fun _ => true).dma.busy .settings = false ∧
    (granted .running .settings .deviceStatusWrite [0]).dma.busy .settings = true ∧
    (let s := rewriting .stopped false fun l => decide (5 ≤ l.val);
    s.unit.reload = none ∧ s.unit.devRewrite = false ∧ (s.lane 5).rewrite = true ∧ (∀ k < (5 : Lane), (s.lane k).rewrite = false)) ∧
    (∀ k, ((rewriting .stopped false fun _ => false).lane k).rewrite = false) ∧
    ({ rewriting .running true (fun _ => true) with unit.reload := some (.echo 3 (accepted 0 [])) } : State).unit.reload =
      some (.echo 3 (accepted 0 [])) ∧
    (loading 0 1).unit.load = .laneRecord 0 ∧ (rewriting .loading false fun _ => false).unit.load = .idle := by
  refine ⟨fun h => absurd h.1 (by decide), by decide +kernel, by decide +kernel, by decide +kernel, by decide +kernel, rfl, rfl, rfl⟩

/-- R164: the device status section first, then the lowest lane; R176: at the base the area registers hold. -/
theorem test_rewrites :
    ((rewriting .running true fun l => decide (5 ≤ l.val)).settle.dma.granted.map fun g => (g.req.purpose, g.req.offset)) =
      some (.deviceStatusWrite, 0x40) ∧
    (({ rewriting .stopped false (fun l => decide (5 ≤ l.val)) with run.areaLow := 0x5000 } : State).settle.dma.granted.map
      fun g => (g.req.purpose, g.req.offset, g.base)) = some (.laneStatusWrite 5, 0x700, 0x5000) := by decide +kernel

/-- Three requests that wait, with the last grant given. -/
def asking (last : Requester) : State :=
  { dev .running with dma := { last := last, granted := none, waitJ := some (readRequest .pageLinkRead 0x14 4),
                               waitW := some (readRequest .orderLinkRead 0x10 4), waitS := some (readRequest (.reloadRead 3) 0x200 128) } }

theorem witness_ArbiterGrant :
    (granted .running .journal .recordWrite [1]).dma.granted.isSome = true ∧ (dev .faulted).dma.granted = none ∧
    (dev .faulted).run.device = .faulted ∧ (asking .walker).dma.granted = none ∧ (asking .walker).run.device ≠ .faulted ∧
    ((asking .walker).settle.dma.granted.map Grant.who = some .settings ∧ (asking .walker).dma.last = .walker) ∧
    ((asking .settings).settle.dma.granted.map Grant.who = some .journal ∧ (asking .settings).dma.last = .settings) ∧
    ((asking .journal).settle.dma.granted.map Grant.who = some .walker ∧ (asking .journal).dma.last = .journal) := by decide +kernel

theorem witness_StatusBytes : LaneUnit.reset.configured = false ∧ active.configured = true := by decide

theorem witness_SettledInvariant :
    let s : State := { State.reset with pending := [.run] }
    s.settled ∧ (∃ t, exec .run s = .next t) ∧ ∃ t, step s = .next t := ⟨rfl, ⟨_, rfl⟩, _, rfl⟩

/-- The invariants hold of the reset state with a command waiting, and step answers a next state there. -/
theorem witness_MachineInvariant :
    let s : State := { State.reset with pending := [.run] }
    (s.memOk ∧ s.baseOk ∧ s.faultOk ∧ s.engineOk ∧ s.loadOk ∧ s.queueOk ∧ s.seqOk) ∧ ∃ t, step s = .next t := by
  refine ⟨⟨rfl, rfl, by unfold State.faultOk; decide, by unfold State.engineOk; decide, ⟨fun w r h => ?_, nofun, nofun⟩,
    by unfold State.queueOk; decide, seqOk_empty rfl⟩, _, rfl⟩
  cases w <;> cases h

/-- Two records of lane 3 on both sides of the wrap of its sequence, and one of lane 0xFF, with the settings unit's write in flight. -/
theorem witness_MachineInvariant_records :
    let s : State := { granted .running .settings .deviceStatusWrite [0] with
      lanes := (State.reset.lanes).set 3 { active with seq := 0 }
      staging := { Staging.reset with
        devSeq := 1
        queue := [⟨.keyDown 1 1, some 3, 0, 0xFFFE⟩, ⟨.runStart 0, none, 0, 0⟩, ⟨.keyUp 1 0, some 3, 0, 0xFFFF⟩] } }
    s.loadOk ∧ s.seqOk := by
  have two : ∀ (rs : List StagedRecord) (n : BitVec 16),
      (∀ i, i < rs.length → rs[i]?.map StagedRecord.seq = some (n - BitVec.ofNat 16 (rs.length - i))) → NumberedBelow rs n := by
    intro rs n h i r hr
    have := h i (by by_contra hi; rw [List.getElem?_eq_none (by omega)] at hr; cases hr)
    rw [hr] at this
    simpa using this
  refine ⟨⟨fun w r h => ?_, fun g h => ?_, nofun⟩, fun l => two _ _ ?_, two _ _ ?_⟩
  · cases w <;> cases h
  · cases h
    exact ⟨rfl, fun _ => rfl, nofun⟩
  · revert l; decide +kernel
  · decide +kernel

/-- A lane's settings record is being read in LOADING. -/
theorem witness_MachineInvariant_loading : (granted .loading .settings (.laneSettingsRead 3) []).loadOk := by
  refine ⟨fun w r h => ?_, fun g h => ?_, nofun⟩
  · cases w <;> cases h
  · cases h
    exact ⟨rfl, fun _ => rfl, fun _ _ => rfl⟩

theorem witness_LaneInvariant :
    let s : State := { State.reset with pending := [.run] }
    (s.lanesOk ∧ s.keysOnce ∧ s.receiversOk ∧ s.settingsOk) ∧ ∃ t, step s = .next t := by
  have h : ∀ l, ({ State.reset with pending := [.run] } : State).lane l = LaneUnit.reset := by
    intro l; simp [State.lane, State.reset]
  refine ⟨⟨?_, ?_, ?_, ?_⟩, _, rfl⟩ <;> intro l <;> rw [h]
  · unfold LaneUnit.ok Drawer.ok ScanPort.ok LaneUnit.keysOk; decide
  · unfold LaneUnit.keysOnce; decide
  · intro p; cases p <;> exact ⟨by decide, by decide⟩
  · exact ⟨nofun, nofun⟩

end Sys2Proof.Tests
end

section
/-! PROOFS. The READY output (R52), and the orders to a scanner port (R54, R57): the answer that the owner of an order gives at once, and
the port whose order enable flag is cleared. -/

namespace Sys2Proof.Machine

/-! ## READY (R52) -/

/-- READY, condition by condition, with the port's source in the wake mask where the lane dozes. -/
theorem ready_iff (s : State) (l : Lane) (p : Port) :
    s.ready l p = true ↔
      s.run.device = .running ∧
      ((s.lane l).laneState = .active ∨ (s.lane l).laneState = .doze ∧ (s.lane l).wakesOn (portSource p) = true) ∧
      (s.lane l).keylock.position ≠ .lock ∧ ((s.lane l).portSettings p).enable = true ∧ ((s.lane l).port p).orderEnable = true ∧
      s.staging.hold = false := by
  simp only [State.ready, Bool.and_eq_true, Bool.or_eq_true, beq_iff_eq, bne_iff_ne, Bool.not_eq_true', and_assoc]

/-- Settles O43: `ready_iff`, with port A's source at mask bit 1 and port B's at bit 2. -/
theorem readyOutput : Obligations.ReadyOutput := by
  unfold Obligations.ReadyOutput
  intro s l p
  cases p with
  | a => exact ready_iff s l .a
  | b => exact ready_iff s l .b

/-! ## Orders that their owner answers at once (R143) -/

theorem hands_handed {s : State} {o : Order} {sl : Slip} (h : s.hands o sl) : s.walker.handed = some o := by
  obtain ⟨hstate, hstage, -⟩ := h
  simp only [Walker.handed, hstate, hstage]

/-- An order whose owner works from `s` to `e` and then answers `a`: with the walker and the clock as they were, the slip in hand is the one
answered, and the clock of its body is that of `s`. -/
theorem answeredBy_of_taking {c : Instr} {s e : State} {o : Order} {sl : Slip} {a : Answer} {take : State → State}
    (exec_eq : exec c s = s.taking o take) (hands : s.hands o sl) (answers : take s = e.answer a)
    (walker : e.walker = s.walker) (clock : e.run.clock = s.run.clock) : AnsweredBy c s e sl a := by
  have current : e.walker.current = some sl := by
    obtain ⟨-, -, hcurrent⟩ := hands
    rw [walker, hcurrent]
  have asked : take s = ({ e with walker.state := .working, walker.stage := .body a } : State).request .walker
      (writeRequest .slipBodyWrite (sl.offset + 0x1C) (a.body s.run.clock)) := by
    rw [answers, State.answer, current, clock]
  refine ⟨take s, (take s).settle, ?_, settle_frame _, ?_, asks_settle ?_⟩
  · rw [exec_eq, State.taking, if_pos (hands_handed hands)]
  · rw [asked]; rfl
  · rw [asked]; exact asks_request _ _ _

theorem exec_scannerSet (l : Lane) (p : Port) (enable : Bool) (s : State) :
    exec (.scannerSet l p enable) s = s.taking (.scannerSet l p enable) fun s => s.takeScannerSet l p enable := rfl

theorem exec_scanConfirm (l : Lane) (p : Port) (bad : Bool) (s : State) :
    exec (.scanConfirm l p bad) s = s.taking (.scanConfirm l p bad) fun s => s.takeScanConfirm l p bad := rfl

/-! ## The order enable flag cleared (R50, R51, R54, R55) -/

/-- A port's order enable flag is cleared: a frame in assembly is cut and a pattern stops. -/
def State.clearOrderEnable (s : State) (l : Lane) (p : Port) : State :=
  ((s.modPort l p fun q => { q with orderEnable := false }).cutFrame l p).modPort l p ScanPort.stopTone

theorem takeScannerSet_false (s : State) (l : Lane) (p : Port) :
    s.takeScannerSet l p false = (s.clearOrderEnable l p).answer (accepted ((s.lane l).port p).orderEnable.toNat []) := rfl

theorem cutFrame_other {s : State} {l : Lane} {p : Port} (h : ((s.lane l).port p).frame ≠ .assembling) : s.cutFrame l p = s := by
  simp only [State.cutFrame, if_neg h]

/-- The port that a cut has gone over. -/
theorem port_cutFrame (s : State) (l : Lane) (p : Port) : ((s.cutFrame l p).lane l).port p = ((s.lane l).port p).cut := by
  rw [port_booked (booked_cutFrame s l p)]
  cases p <;> rfl

theorem LaneStep.clearOrderEnable (l : Lane) (s : State) (p : Port) : LaneStep (only l) s (s.clearOrderEnable l p) :=
  ((LaneStep.modPort fun h => h).trans (LaneStep.cutFrame l _ p)).trans (LaneStep.stopTone l _ p)

theorem port_clearOrderEnable (s : State) (l : Lane) (p : Port) :
    ((s.clearOrderEnable l p).lane l).port p = ({ (s.lane l).port p with orderEnable := false } : ScanPort).cut.stopTone := by
  rw [State.clearOrderEnable, port_modPort_same, port_cutFrame, port_modPort_same]

theorem CountsRefused.clearOrderEnable (l : Lane) (s : State) (p : Port) :
    CountsRefused (if ((s.lane l).port p).frame = .assembling then 1 else 0) l s (s.clearOrderEnable l p) := by
  have flag : LaneStep (only l) s (s.modPort l p fun q => { q with orderEnable := false }) := LaneStep.modPort fun h => h
  have cut := CountsRefused.cutFrame l (s.modPort l p fun q => { q with orderEnable := false }) p
  rw [port_modPort_same] at cut
  have flagged := (KeepsCounter.modPort .labelsRefused l s p fun q => { q with orderEnable := false }).refused.trans flag.toLaneFrame cut
  have := flagged.trans (flag.trans (LaneStep.cutFrame l _ p)).toLaneFrame
    (KeepsCounter.modPort .labelsRefused l _ p ScanPort.stopTone).refused
  rwa [Nat.zero_add, Nat.add_zero] at this

theorem Offers.clearOrderEnable (l : Lane) (s : State) (p : Port) :
    Offers l s (s.clearOrderEnable l p)
      (if ((s.lane l).port p).frame = .assembling then [.labelRefused p (.cut ((s.lane l).port p).text.length)] else []) := by
  have cut := Offers.cutFrame l (s.modPort l p fun q => { q with orderEnable := false }) p
  rw [port_modPort_same] at cut
  have offered := (Offers.modPort.trans cut).trans (Offers.modPort (m := l) (p := p) (f := ScanPort.stopTone))
  rwa [List.nil_append, List.append_nil] at offered

/-- Where no frame is in assembly, nothing but the port moves. -/
theorem clearOrderEnable_other {s : State} {l : Lane} {p : Port} (h : ((s.lane l).port p).frame ≠ .assembling) :
    (s.clearOrderEnable l p).staging = s.staging ∧ ((s.clearOrderEnable l p).lane l).counters = (s.lane l).counters := by
  rw [State.clearOrderEnable, cutFrame_other (by rwa [port_modPort_same])]
  refine ⟨rfl, ?_⟩
  simp only [State.modPort, lane_modLane_same]
  cases p <;> rfl

/-- In RUNNING and STOPPING what `CountsRefused` counts once is `Counted`. -/
theorem CountsRefused.counted {l : Lane} {s t : State} (h : CountsRefused 1 l s t)
    (run : s.run.device = .running ∨ s.run.device = .stopping) : Counted s t l .labelsRefused := by
  unfold CountsRefused at h
  unfold Counted
  change _ = _ + if (s.lane l).settings.inhibit.getLsbD 1 then 0 else 1
  cases hi : (s.lane l).settings.inhibit.getLsbD 1 with
  | true => rwa [if_neg fun x => absurd x.2 (by simp [hi])] at h
  | false => rwa [if_pos ⟨run, hi⟩] at h

/-! ## SCANNER_SET and SCAN_CONFIRM -/

theorem takeScannerSet_true (s : State) (l : Lane) (p : Port) :
    s.takeScannerSet l p true =
      if ((s.lane l).portSettings p).enable then
        (s.modPort l p fun q => { q with orderEnable := true }).answer (accepted ((s.lane l).port p).orderEnable.toNat [])
      else s.answer (refusal .portOff 0) := rfl

/-- SCAN_CONFIRM past its first refusal. -/
theorem takeScanConfirm_on {s : State} {l : Lane} (on : (s.lane l).laneState = .active ∨ (s.lane l).laneState = .doze) (p : Port)
    (bad : Bool) :
    s.takeScanConfirm l p bad =
      if ((s.lane l).portSettings p).enable = false ∨ ((s.lane l).port p).orderEnable = false then s.answer (refusal .portOff 0)
      else (s.modPort l p fun q => q.startTone ((s.lane l).portSettings p) bad).answer
        (accepted ((s.lane l).port p).tone.isSome.toNat (byte4 (word (msTicks ((s.lane l).portSettings p).toneMs)))) := by
  have notOff : ¬((s.lane l).laneState = .off ∨ (s.lane l).laneState = .disabled) := by
    rcases on with h | h <;> simp [h]
  simp only [State.takeScanConfirm, if_neg notOff]

/-- Settles O32, clause by clause: the refusals, the flag set, the flag cleared through `clearOrderEnable`, and the pattern started. -/
theorem scannerOrders : Obligations.ScannerOrders := by
  unfold Obligations.ScannerOrders
  intro s l p b sl
  have setExec {enable : Bool} := exec_scannerSet l p enable s
  have confirmExec := exec_scanConfirm l p b s
  refine ⟨fun hands disabled => ?_, fun hands enabled => ?_, fun hands => ?_, fun hands off => ?_, fun hands on portOff => ?_,
    fun hands on enabled ordered => ?_⟩
  · exact answeredBy_of_taking setExec hands (by rw [takeScannerSet_true, if_neg (by simp [disabled])]) rfl rfl
  · exact answeredBy_of_taking setExec hands (by rw [takeScannerSet_true, if_pos enabled]) rfl rfl
  · have frame := (LaneStep.clearOrderEnable l s p).toLaneFrame
    have refused := CountsRefused.clearOrderEnable l s p
    have offers := Offers.clearOrderEnable l s p
    refine ⟨s.clearOrderEnable l p, answeredBy_of_taking setExec hands (takeScannerSet_false s l p) frame.walker frame.clock, frame, ?_,
      fun cut run => ?_, fun cut room => ?_, clearOrderEnable_other⟩
    · rw [port_clearOrderEnable]
      simp only [ScanPort.cut]
      split <;> rfl
    · rw [if_pos cut] at refused
      exact refused.counted run
    · rw [if_pos cut] at offers
      exact offers.makes (room.room.mono (by simp))
  · exact answeredBy_of_taking confirmExec hands (by simp only [State.takeScanConfirm, if_pos off]) rfl rfl
  · exact answeredBy_of_taking confirmExec hands (by rw [takeScanConfirm_on on, if_pos portOff]) rfl rfl
  · exact answeredBy_of_taking confirmExec hands (by rw [takeScanConfirm_on on, if_neg (by simp [enabled, ordered])]; rfl) rfl rfl

end Sys2Proof.Machine
end

section
/-! PROOFS. The orders to a drawer (R80, R90, R92, R93): what an event of the drawer controller leaves in its lane, with the records it
offers, and the answers of DRAWER_KICK, DRAWER_LOCKOUT and DRAWER_RELEASE. -/

namespace Sys2Proof.Machine

/-! ## A drawer event with room (R79, R98) -/

/-- A wake offers LANE_STATE and at most one cut of each port, so a roomy queue holds them and more. -/
theorem wakeRecords_length_le (s : State) (l : Lane) (w : WakeSource) : (s.wakeRecords l w).length ≤ 3 := by
  have cuts : ((s.lane l).cutPorts .active).length ≤ 2 := List.length_filter_le _ _
  unfold State.wakeRecords
  split
  · simpa [LaneUnit.changeRecords, Nat.lt_succ_iff] using cuts
  · simp

/-- From `s` to `t` the drawer of lane `l` has become `d` by one event of the controller: the lane's frame, its status rewrite, its wake
where the condition has changed, and, with room, the DRAWER record behind the records of the wake. -/
structure DrawerMoved (s t : State) (l : Lane) (d : Drawer) (cause : DrawerCause) (value : Word32) : Prop where
  frame : LaneFrame (only l) s t
  drawer : (t.lane l).drawer = d
  rewrite : (t.lane l).rewrite = true
  stays : d.cond = (s.lane l).drawer.cond → LaneStays s t l ∧
    (s.roomy l → Produces s t l [d.record (s.lane l).drawer.cond cause value])
  wakes : d.cond ≠ (s.lane l).drawer.cond → WokenBy s t l .drawer ∧
    (s.roomy l → Produces s t l (s.wakeRecords l .drawer ++ [d.record (s.lane l).drawer.cond cause value]))

theorem drawerMoved_drawerEvent {s : State} {l : Lane} {f : Drawer → Drawer} (cause : DrawerCause) (value : Word32)
    (ok : (s.lane l).drawer.ok → (f (s.lane l).drawer).ok) :
    DrawerMoved s (s.drawerEvent l f cause value) l (f (s.lane l).drawer) cause value := by
  obtain ⟨drawer, rewrite, -, lane, -, offers, frame⟩ := drawerEvent_spec s l f cause value ok
  refine ⟨frame, drawer, rewrite, fun same => ?_, fun moved => ?_⟩
  · rw [if_pos same] at lane offers
    exact ⟨lane, fun room => offers.makes (room.room.mono (by simp))⟩
  · rw [if_neg moved] at lane offers
    refine ⟨lane, fun room => offers.makes (room.room.mono ?_)⟩
    have := wakeRecords_length_le s l .drawer
    simp only [List.length_append, List.length_singleton]
    omega

theorem Produces.count {s t : State} {l : Lane} {bs : List RecordBody} (h : Produces s t l bs) (c : Counter) :
    Produces s (t.count l c) l bs := by
  unfold Produces
  rw [count_staging, count_seq]
  exact h

theorem LaneStays.after {s a t : State} {l : Lane} (h : LaneStays s a l) (booked : Booked (a.lane l) (t.lane l)) : LaneStays s t l := by
  unfold LaneStays
  rw [booked.1]
  exact h

/-- What is counted behind a drawer event leaves it as it is; LABELS_REFUSED alone is a matter of the wake. -/
theorem DrawerMoved.count {s t : State} {l : Lane} {d : Drawer} {cause : DrawerCause} {value : Word32} {c : Counter}
    (h : DrawerMoved s t l d cause value) (other : .labelsRefused ≠ c) : DrawerMoved s (t.count l c) l d cause value := by
  have booked := booked_count t l l c
  exact {
    frame := h.frame.trans (LaneStep.count t c).toLaneFrame
    drawer := by rw [booked.1]; exact h.drawer
    rewrite := booked.2 h.rewrite
    stays := fun same => (h.stays same).imp (·.after booked) fun made room => (made room).count c
    wakes := fun moved => (h.wakes moved).imp (·.after booked (KeepsCounter.count other l t)) fun made room => (made room).count c }

/-- A counter that an event has not moved is counted once behind it (R165). -/
theorem counted_count {s t : State} {l : Lane} {c : Counter} (kept : KeepsCounter c l s t)
    (settings : (t.lane l).settings = (s.lane l).settings) : Counted s (t.count l c) l c := by
  unfold Counted
  rw [count_counter, kept, settings]
  cases (s.lane l).settings.inhibit.getLsbD c.index.val <;> simp

/-! ## DRAWER_KICK (R80, R90) -/

theorem exec_drawerKick (l : Lane) (s : State) : exec (.drawerKick l) s = s.taking (.drawerKick l) fun s => s.takeKick l := rfl

/-- A drawer that a kick is not refused for is unlatched, and CLOSED or JAMMED. -/
theorem kickable_of_kickRefusal_none {u : LaneUnit} (h : u.kickRefusal = none) :
    u.drawer.latch = false ∧ (u.drawer.cond = .closed ∨ u.drawer.cond = .jammed) := by
  unfold LaneUnit.kickRefusal at h
  split_ifs at h with _ _ _ latched _ ready
  exact ⟨by simpa using latched, ready⟩

theorem kick_ok {d : Drawer} (c : DrawerSettings) (now : Word32) (unlatched : d.latch = false) (h : d.ok) : (d.kick c now).ok := by
  obtain ⟨-, -, history, fails⟩ := h
  exact ⟨fun latched => absurd latched (by simp [Drawer.kick, unlatched]), fun _ => ⟨rfl, by simp [Drawer.kick]⟩, history, fails⟩

/-- What the drawer controller does for a kick that it accepts, before it answers. -/
def State.startKick (s : State) (l : Lane) : State :=
  let c := (s.lane l).settings.drawer
  (s.drawerEvent l (fun d => d.kick c s.run.clock) .order (word (msTicks c.kickMs))).count l .kicks

theorem takeKick_refused {s : State} {l : Lane} {o : SlipOutcome} {n : Nat} (h : (s.lane l).kickRefusal = some (o, n)) :
    s.takeKick l = s.answer (refusal o n) := by
  simp only [State.takeKick, h]

theorem takeKick_accepted {s : State} {l : Lane} (h : (s.lane l).kickRefusal = none) :
    s.takeKick l = (s.startKick l).answer (accepted (s.lane l).drawer.cond.code
      (byte4 (word (msTicks (s.lane l).settings.drawer.kickMs)) ++ byte4 (word (msTicks (s.lane l).settings.drawer.confirmMs)))) := by
  simp only [State.takeKick, h, State.startKick]

theorem drawerMoved_startKick {s : State} {l : Lane} (unlatched : (s.lane l).drawer.latch = false) :
    DrawerMoved s (s.startKick l) l ((s.lane l).drawer.kick (s.lane l).settings.drawer s.run.clock) .order
      (word (msTicks (s.lane l).settings.drawer.kickMs)) :=
  (drawerMoved_drawerEvent _ _ (kick_ok _ _ unlatched)).count (by decide)

theorem counted_startKick {s : State} {l : Lane} (unlatched : (s.lane l).drawer.latch = false) :
    Counted s (s.startKick l) l .kicks := by
  obtain ⟨-, -, -, -, kept, -, frame⟩ := drawerEvent_spec s l (fun d => d.kick (s.lane l).settings.drawer s.run.clock) .order
    (word (msTicks (s.lane l).settings.drawer.kickMs)) (kick_ok _ _ unlatched)
  obtain ⟨-, settings, -⟩ := frame.settings l
  exact counted_count (kept .kicks (by decide) (by decide)) settings

/-- Settles O30: the statement's chain of cases is `kickRefusal`, each of whose refusals is answered at once; an accepted kick is
`startKick`, whose condition always changes. -/
theorem drawerKick : Obligations.DrawerKick := by
  unfold Obligations.DrawerKick
  intro s l sl hands u c d why
  have chain : why = (s.lane l).kickRefusal := by
    simp only [why, u, c, d, LaneUnit.kickRefusal, ne_eq, ← not_or, ite_not]
    by_cases locked : (s.lane l).keylock.position = .lock
    · simp only [locked, positionCode]
    · simp only [if_neg locked]
  rw [chain]
  refine ⟨fun o n refused => ?_, fun unrefused => ?_⟩
  · exact answeredBy_of_taking (exec_drawerKick l s) hands (takeKick_refused refused) rfl rfl
  · obtain ⟨unlatched, ready⟩ := kickable_of_kickRefusal_none unrefused
    have kick := drawerMoved_startKick unlatched
    have moved : Condition.kicking ≠ (s.lane l).drawer.cond := by
      rcases ready with h | h <;> simp [h]
    obtain ⟨woken, made⟩ := kick.wakes moved
    have answered := answeredBy_of_taking (exec_drawerKick l s) hands (takeKick_accepted unrefused) kick.frame.walker kick.frame.clock
    exact ⟨s.startKick l, answered, kick.frame, kick.drawer, kick.rewrite, woken, counted_startKick unlatched, made⟩

/-! ## DRAWER_LOCKOUT and DRAWER_RELEASE (R92, R93) -/

theorem exec_drawerLockout (l : Lane) (s : State) :
    exec (.drawerLockout l) s = s.taking (.drawerLockout l) fun s => s.takeLockout l := rfl

theorem exec_drawerRelease (l : Lane) (s : State) :
    exec (.drawerRelease l) s = s.taking (.drawerRelease l) fun s => s.takeRelease l := rfl

theorem lockOut_kicking {d : Drawer} (h : d.cond = .kicking) :
    d.lockOut = { d with latch := true, cond := .closed, kickOut := false, pulse := none, confirm := none } := by
  simp only [Drawer.lockOut, if_pos h, Drawer.endKick]

theorem lockOut_other {d : Drawer} (h : d.cond ≠ .kicking) : d.lockOut = { d with latch := true } := by
  simp only [Drawer.lockOut, if_neg h]

theorem lockOut_ok {d : Drawer} (h : d.ok) : d.lockOut.ok := by
  obtain ⟨-, -, history, fails⟩ := id h
  by_cases kicking : d.cond = .kicking
  · rw [lockOut_kicking kicking]
    exact drawer_ok_of (by simp) rfl history fails
  · rw [lockOut_other kicking]
    exact drawer_ok_of kicking (h.off kicking) history fails

/-- A drawer whose latch and history a RELEASE has cleared (R93). -/
def Drawer.released (d : Drawer) : Drawer := { d with latch := false, history := [] }

theorem released_ok {d : Drawer} (h : d.ok) : d.released.ok := by
  obtain ⟨-, kicked, -, fails⟩ := h
  exact ⟨nofun, kicked, Nat.zero_le _, fails⟩

theorem takeLockout_latched {s : State} {l : Lane} (h : (s.lane l).drawer.latch = true) :
    s.takeLockout l = s.answer (accepted 1 (byte1 (s.lane l).drawer.cond.code)) := by
  simp only [State.takeLockout, if_pos h]

theorem takeLockout_unlatched {s : State} {l : Lane} (h : (s.lane l).drawer.latch = false) :
    s.takeLockout l = (s.drawerEvent l Drawer.lockOut .order 0).answer (accepted 0 (byte1 (s.lane l).drawer.lockOut.cond.code)) := by
  simp only [State.takeLockout, h, Bool.false_eq_true, if_false]

theorem takeRelease_refused {s : State} {l : Lane}
    (h : (s.lane l).keylock.position = .lock ∨ (s.lane l).keylock.position = .register) :
    s.takeRelease l = s.answer (refusal .keylock (positionCode (s.lane l).keylock.position)) := by
  rcases h with h | h <;> simp only [State.takeRelease, h]

/-- The work of a RELEASE that is not refused, before the answer: a drawer event only where there is something to clear. -/
def State.releaseDrawer (s : State) (l : Lane) : State :=
  let d := (s.lane l).drawer
  if d.latch = true ∨ d.history ≠ [] then s.drawerEvent l Drawer.released .release (word d.history.length) else s

theorem takeRelease_accepted {s : State} {l : Lane}
    (h : (s.lane l).keylock.position = .manager ∨ (s.lane l).keylock.position = .service) :
    s.takeRelease l = (s.releaseDrawer l).answer
      (accepted ((s.lane l).drawer.latch.toNat + 256 * (s.lane l).drawer.history.length) (byte1 (s.lane l).drawer.cond.code)) := by
  rcases h with h | h <;> simp only [State.takeRelease, h, State.releaseDrawer] <;> split <;> rfl

theorem releaseDrawer_clear {s : State} {l : Lane} (latch : (s.lane l).drawer.latch = false) (history : (s.lane l).drawer.history = []) :
    s.releaseDrawer l = s := by
  simp [State.releaseDrawer, latch, history]

theorem drawerMoved_releaseDrawer {s : State} {l : Lane} (h : (s.lane l).drawer.latch = true ∨ (s.lane l).drawer.history ≠ []) :
    DrawerMoved s (s.releaseDrawer l) l (s.lane l).drawer.released .release (word (s.lane l).drawer.history.length) := by
  rw [State.releaseDrawer, if_pos h]
  exact drawerMoved_drawerEvent _ _ released_ok

/-- Settles O31: LOCKOUT by the latch and then by a kick in progress, the one case in which the condition changes; RELEASE by the position
and then by whether there is something to clear. -/
theorem latchOrders : Obligations.LatchOrders := by
  unfold Obligations.LatchOrders
  intro s l sl u d
  have lockout := exec_drawerLockout l s
  have release := exec_drawerRelease l s
  refine ⟨fun hands latched => ?_, fun hands unlatched => ?_, fun hands low => ?_, fun hands high => ?_⟩
  · exact answeredBy_of_taking lockout hands (takeLockout_latched latched) rfl rfl
  · have event : DrawerMoved s (s.drawerEvent l Drawer.lockOut .order 0) l (s.lane l).drawer.lockOut .order 0 :=
      drawerMoved_drawerEvent _ _ lockOut_ok
    have answered := answeredBy_of_taking lockout hands (takeLockout_unlatched unlatched) event.frame.walker event.frame.clock
    intro new
    by_cases kicking : d.cond = .kicking
    · rw [lockOut_kicking kicking] at event answered
      obtain ⟨woken, made⟩ := event.wakes fun same => nomatch same.trans kicking
      simp only [new, if_pos kicking]
      exact ⟨_, answered, event.frame, event.drawer, event.rewrite, woken, made⟩
    · rw [lockOut_other kicking] at event answered
      obtain ⟨stays, made⟩ := event.stays rfl
      simp only [new, if_neg kicking]
      exact ⟨_, answered, event.frame, event.drawer, event.rewrite, stays, made⟩
  · exact answeredBy_of_taking release hands (takeRelease_refused low) rfl rfl
  · by_cases something : d.latch = true ∨ d.history ≠ []
    · have event := drawerMoved_releaseDrawer something
      obtain ⟨stays, made⟩ := event.stays rfl
      have answered := answeredBy_of_taking release hands (takeRelease_accepted high) event.frame.walker event.frame.clock
      refine ⟨s.releaseDrawer l, answered, event.frame, event.drawer, fun latch history => ?_, fun _ => ⟨event.rewrite, stays, made⟩⟩
      simp [latch, history] at something
    · obtain ⟨latch, history⟩ : d.latch = false ∧ d.history = [] := by simpa using something
      have same := releaseDrawer_clear latch history
      refine ⟨s, answeredBy_of_taking release hands ((takeRelease_accepted high).trans (by rw [same])) rfl rfl, LaneFrame.refl _ s, ?_,
        fun _ _ => rfl, fun h => absurd h something⟩
      change d = _
      rw [← latch, ← history]

end Sys2Proof.Machine
end

section
/-! PROOFS. The offering of a record by a lane (R100, R102, R103, R105, R107, R108): which records are made, which of them enter, and what
a loss leaves. -/

namespace Sys2Proof.Machine

/-! ## Production and entry (R100, R102, R108) -/

theorem cls_le_three (b : RecordBody) : b.cls ≤ 3 := by
  cases b with
  | drawer new _ cause =>
    change cause.cls new ≤ 3
    unfold DrawerCause.cls
    split
    · split <;> decide
    all_goals decide
  | _ => simp only [RecordBody.cls, Nat.reduceLeDiff]

theorem produced_iff (d : DeviceState) (cls : Nat) : produced d cls = true ↔ d = .running ∨ d = .stopping ∧ 2 ≤ cls := by
  cases d <;> simp [produced]

theorem lossHeld_eq_false_iff (u : LaneUnit) : u.lossHeld = false ↔ u.losses[0] = 0 ∧ u.losses[1] = 0 := by
  simp [LaneUnit.lossHeld]

theorem hasRoom_iff (s : State) (l : Lane) (cls : Nat) :
    s.hasRoom l cls = true ↔
      if cls < 2 then s.staging.queue.length < 88 ∧ (s.lane l).losses[0] = 0 ∧ (s.lane l).losses[1] = 0
      else s.staging.queue.length < 96 := by
  unfold State.hasRoom
  split
  · rw [Bool.and_eq_true, decide_eq_true_iff, Bool.not_eq_true', lossHeld_eq_false_iff]
  · exact decide_eq_true_iff

/-! ## The three outcomes of an offer -/

theorem offer_unproduced {s : State} {b : RecordBody} (l : Lane) (h : ¬produced s.run.device b.cls = true) : s.offer l b = s :=
  if_neg h

theorem offer_enters {s : State} {l : Lane} {b : RecordBody} (made : produced s.run.device b.cls = true)
    (room : s.hasRoom l b.cls = true) : s.offer l b = s.stage l b := by
  rw [State.offer, if_pos made, if_pos room]

theorem offer_lost {s : State} {l : Lane} {b : RecordBody} (made : produced s.run.device b.cls = true)
    (full : ¬s.hasRoom l b.cls = true) : s.offer l b = s.lose l b.cls := by
  rw [State.offer, if_pos made, if_neg full]

/-! ## A loss (R107) -/

/-- A class beyond 3 would count as class 3, so the bound is needed. -/
theorem addLoss_losses (u : LaneUnit) {cls : Nat} (h : cls ≤ 3) (i : Fin 4) :
    (u.addLoss cls).losses[i] = if i.val = cls then min 65535 (u.losses[i] + 1) else u.losses[i] := by
  have set_at (k : Nat) (hk : k < 4) : (u.losses.set k (min 65535 (u.losses[k] + 1)) hk)[i] =
      if i.val = k then min 65535 (u.losses[i] + 1) else u.losses[i] := by
    by_cases same : i.val = k
    · subst same
      simp
    · simp [same, Vector.getElem_set_ne _ _ (Ne.symm same)]
  match cls, h with
  | 0, _ => exact set_at 0 _
  | 1, _ => exact set_at 1 _
  | 2, _ => exact set_at 2 _
  | 3, _ => exact set_at 3 _

theorem addLoss_settings (u : LaneUnit) (cls : Nat) : (u.addLoss cls).settings = u.settings := by
  obtain ⟨⟨-, settings, -⟩, -⟩ := addLoss_same u cls
  exact settings

theorem lose_losses (s : State) (l : Lane) (cls : Nat) : ((s.lose l cls).lane l).losses = ((s.lane l).addLoss cls).losses := by
  rw [State.lose, count_losses, lane_modLane_same]

theorem lose_seq (s : State) (l m : Lane) (cls : Nat) : ((s.lose l cls).lane m).seq = (s.lane m).seq := by
  rw [lose_lane]

theorem lose_lane_ne (s : State) {l m : Lane} (cls : Nat) (h : m ≠ l) : (s.lose l cls).lane m = s.lane m :=
  (LaneStep.lose (l := l) s cls).toLaneFrame.others m h

theorem counted_lose (s : State) (l : Lane) (cls : Nat) : Counted s (s.lose l cls) l .lost :=
  counted_count (KeepsCounter.modLane (addLoss_counters _ cls)) (by rw [lane_modLane_same, addLoss_settings])

/-- Settles O55: the two tests of `State.offer` are the statement's, and each of its three outcomes is described by one rule: nothing, an
entry at the tail (`stage`) or a loss (`lose`). -/
theorem offerRule : Obligations.OfferRule := by
  unfold Obligations.OfferRule
  intro s l b u made fill enters
  have made_iff : produced s.run.device b.cls = true ↔ made := produced_iff _ _
  have enters_iff : s.hasRoom l b.cls = true ↔ enters := hasRoom_iff s l b.cls
  rw [← made_iff, ← enters_iff]
  refine ⟨cls_le_three b, offer_unproduced l, fun produces room => ?_, fun produces full => ?_⟩
  · rw [offer_enters produces room]
    exact ⟨stage_staging s l b, fun m => stage_lane s l m b, stage_run s l b⟩
  · rw [offer_lost produces full]
    refine ⟨lose_staging s l b.cls, counted_lose s l b.cls, fun i => ?_, lose_seq s l l b.cls, fun m => lose_lane_ne s b.cls⟩
    rw [lose_losses, addLoss_losses _ (cls_le_three b)]

end Sys2Proof.Machine
end

section
/-! PROOFS. The key image that KEY_IMAGE_READ returns and records (R39, R146), and the lane counters (R148, R165, R166): one count by its
three outcomes, and the bytes in which COUNTERS_READ returns the eight of them. -/

namespace Sys2Proof.Machine

/-! ## KEY_IMAGE_READ (R39, R146) -/

theorem exec_keyImageRead (l : Lane) (s : State) :
    exec (.keyImageRead l) s = s.taking (.keyImageRead l) fun s => s.takeKeyImageRead l := rfl

theorem getLsbD_ofNat_two_pow {w i j : Nat} (h : j < w) : (BitVec.ofNat w (2 ^ i)).getLsbD j = decide (j = i) := by
  rw [BitVec.getLsbD_ofNat, Nat.testBit_two_pow]
  simp [h, eq_comm]

/-- The fold of `keyBitmap`, from any set of keys to begin with. -/
theorem getLsbD_foldl_keys (keys : List Key) (b : BitVec 128) (k : Key) :
    (keys.foldl (fun b k => b ||| BitVec.ofNat 128 (2 ^ k.val)) b).getLsbD k.val = (b.getLsbD k.val || decide (k ∈ keys)) := by
  induction keys generalizing b with
  | nil => simp
  | cons x keys ih =>
    rw [List.foldl_cons, ih, BitVec.getLsbD_or, getLsbD_ofNat_two_pow k.isLt, Bool.or_assoc]
    simp [Fin.ext_iff]

/-- The bitmap of a list of keys has the bits of its keys, and no others. -/
theorem getLsbD_keyBitmap (keys : List Key) (k : Key) : (keyBitmap keys).getLsbD k.val = decide (k ∈ keys) := by
  rw [keyBitmap, getLsbD_foldl_keys]
  simp

/-- A record that the device state produces and that enters the queue is all that its lane produces. -/
theorem produces_stage {s : State} {b : RecordBody} (l : Lane) (made : s.run.device = .running ∨ 2 ≤ b.cls) :
    Produces s (s.stage l b) l [b] := by
  unfold Produces
  rw [stage_staging, stage_lane, if_pos rfl]
  simp [made]

/-- Classes 2 and 3 need only a free place, in RUNNING and in STOPPING alike (R100, R102). -/
theorem produces_offer_of_two_le_cls {s : State} {b : RecordBody} (l : Lane) (high : 2 ≤ b.cls)
    (run : s.run.device = .running ∨ s.run.device = .stopping) (free : s.staging.queue.length < 96) :
    Produces s (s.offer l b) l [b] := by
  have made : produced s.run.device b.cls = true := (produced_iff _ _).2 (run.imp_right fun stopping => ⟨stopping, high⟩)
  have room : s.hasRoom l b.cls = true := (hasRoom_iff s l b.cls).2 (by rwa [if_neg (Nat.not_lt.2 high)])
  rw [offer_enters made room]
  exact produces_stage l (.inr high)

/-- Settles O33: the owner's work is the offer of KEY_IMAGE, a record of class 2, which leaves the keyboard of its lane. -/
theorem keyImageRead : Obligations.KeyImageRead := by
  unfold Obligations.KeyImageRead
  intro s l sl hands u
  have answered := answeredBy_of_taking (e := s.offer l (u.imageRecord .read)) (exec_keyImageRead l s) hands rfl
    (offer_walker _ _ _) (LaneStep.offer s _).toLaneFrame.clock
  refine ⟨s.offer l (u.imageRecord .read), keyBitmap u.kb.image, answered, getLsbD_keyBitmap u.kb.image,
    (LaneStep.offer s _).toLaneFrame, offer_lane_kb s l l _, produces_offer_of_two_le_cls l (Nat.le_refl 2), fun ok idle => ?_⟩
  obtain ⟨untracked, -⟩ := ok
  obtain ⟨image, blocked⟩ := untracked idle
  simp [image, blocked, keyBitmap]

/-! ## One count (R165, R166) -/

/-- A lane unit whose counter `c` has brought the high notice. -/
def LaneUnit.noteHigh (u : LaneUnit) (c : Counter) : LaneUnit :=
  { u.bump c with noted := setBit8 u.noted c.index, rewrite := true }

theorem count_inhibited {s : State} {l : Lane} {c : Counter} (h : (s.lane l).settings.inhibit.getLsbD c.index.val = true) :
    s.count l c = s := by
  simp only [State.count, if_pos h]

theorem count_plain {s : State} {l : Lane} {c : Counter} (free : (s.lane l).settings.inhibit.getLsbD c.index.val = false)
    (low : (s.lane l).highNotice c = false) : s.count l c = s.setLane l ((s.lane l).bump c) := by
  simp only [State.count, free, low, Bool.false_eq_true, if_false]

theorem count_high {s : State} {l : Lane} {c : Counter} (free : (s.lane l).settings.inhibit.getLsbD c.index.val = false)
    (high : (s.lane l).highNotice c = true) : s.count l c = (s.setLane l ((s.lane l).noteHigh c)).raise .stats := by
  simp only [State.count, free, high, Bool.false_eq_true, if_false, if_true, LaneUnit.noteHigh]

/-- The high notice in numbers: 49152 is far from the wrap, so the count before it is 49151. -/
theorem highNotice_iff (u : LaneUnit) (c : Counter) :
    u.highNotice c = true ↔ u.counters[c.index].toNat + 1 = 49152 ∧ u.noted.getLsbD c.index.val = false := by
  have reached (v : BitVec 16) : v + 1 = 49152#16 ↔ v.toNat + 1 = 49152 := by
    rw [← BitVec.toNat_inj, BitVec.toNat_add]
    simp
    omega
  simp only [LaneUnit.highNotice, Bool.and_eq_true, beq_iff_eq, Bool.not_eq_true', reached, Fin.getElem_fin]

theorem getLsbD_setBit8 (b : BitVec 8) (i : Fin 8) {j : Nat} (h : j < 8) :
    (setBit8 b i).getLsbD j = (b.getLsbD j || decide (j = i.val)) := by
  rw [setBit8, BitVec.getLsbD_or, getLsbD_ofNat_two_pow h]

/-! ## COUNTERS_READ (R148) -/

theorem exec_countersRead (l : Lane) (clear : Bool) (s : State) :
    exec (.countersRead l clear) s = s.taking (.countersRead l clear) fun s => s.takeCountersRead l clear := rfl

/-- Behind one 2-byte field the fields of the rest stand two bytes further. -/
theorem field2_byte2_append (n : Nat) (rest : List Byte) (i : Nat) : field2 (byte2 n ++ rest) (i + 2) = field2 rest i := rfl

/-- A 2-byte field holds what it was written with. -/
theorem field2_byte2 {n : Nat} (h : n < 65536) (rest : List Byte) : field2 (byte2 n ++ rest) 0 = n := by
  change n % 256 + 256 * (n / 256 % 256) = n
  omega

/-- A row of 2-byte fields reads back value by value. -/
theorem field2_flatMap_byte2 (cs : List (BitVec 16)) (i : Nat) (h : i < cs.length) :
    field2 (cs.flatMap fun c => byte2 c.toNat) (2 * i) = cs[i].toNat := by
  induction cs generalizing i with
  | nil => exact absurd h (Nat.not_lt_zero i)
  | cons c cs ih =>
    cases i with
    | zero => exact field2_byte2 c.isLt _
    | succ i => exact (field2_byte2_append _ _ _).trans (ih i (Nat.lt_of_succ_lt_succ h))

theorem length_counterBytes (counters : Vector (BitVec 16) 8) : (counterBytes counters).length = 16 := by
  have two (c : BitVec 16) : (byte2 c.toNat).length = 2 := rfl
  simp [counterBytes, List.length_flatMap, two]

theorem field2_counterBytes (counters : Vector (BitVec 16) 8) (i : Fin 8) :
    field2 (counterBytes counters) (2 * i.val) = counters[i].toNat := by
  rw [counterBytes, field2_flatMap_byte2 _ _ (by simp)]
  simp

/-- What COUNTERS_READ does before it answers: the counters are cleared with the clear flag only. -/
def State.readCounters (s : State) (l : Lane) (clear : Bool) : State := if clear then s.modLane l LaneUnit.clearCounters else s

theorem takeCountersRead_eq (s : State) (l : Lane) (clear : Bool) :
    s.takeCountersRead l clear =
      (s.readCounters l clear).answer (accepted (s.lane l).noted.toNat (counterBytes (s.lane l).counters)) := rfl

theorem readCounters_true (s : State) (l : Lane) :
    s.readCounters l true = s.setLane l { s.lane l with
      counters := Vector.replicate 8 0, noted := 0, rewrite := (s.lane l).rewrite || decide ((s.lane l).noted ≠ 0) } := by
  have flags : ((s.lane l).noted != 0) = decide ((s.lane l).noted ≠ 0) := Bool.eq_iff_iff.2 (by simp)
  rw [← flags]
  rfl

/-- Settles O34: a count by its three outcomes, whose test for the high notice is `highNotice_iff`; and the read, which answers the bytes of
the counters as they stand before a clear. -/
theorem laneCounters : Obligations.LaneCounters := by
  unfold Obligations.LaneCounters
  refine ⟨fun s l c => ?_, fun s l sl clear hands => ?_⟩
  · intro u i counted high
    have high_iff : u.highNotice c = true ↔ high := highNotice_iff u c
    refine ⟨count_inhibited, fun free low => ?_, fun free notice => ?_⟩
    · exact count_plain free (by rwa [← high_iff, Bool.not_eq_true] at low)
    · exact ⟨setBit8 u.noted c.index, fun j => getLsbD_setBit8 u.noted c.index, count_high free (high_iff.2 notice)⟩
  · have only_lanes : (s.readCounters l clear).walker = s.walker ∧ (s.readCounters l clear).run = s.run := by
      cases clear <;> exact ⟨rfl, rfl⟩
    obtain ⟨walker, run⟩ := only_lanes
    have answered := answeredBy_of_taking (exec_countersRead l clear s) hands (takeCountersRead_eq s l clear) walker (by rw [run])
    refine ⟨s.readCounters l clear, counterBytes (s.lane l).counters, answered, length_counterBytes _, field2_counterBytes _,
      fun kept => ?_, fun cleared => ?_⟩
    · rw [kept]
      rfl
    · rw [cleared]
      exact readCounters_true s l

end Sys2Proof.Machine
end

section
/-! PROOFS. The register window (R175, R176, R179): what the words of the window hold bit by bit, and what an access of each does. -/

namespace Sys2Proof.Machine

/-! ## Fields of a word -/

/-- A word built of a low field of `n` bits and what stands above it. -/
theorem testBit_field_add {n low : Nat} (fits : low < 2 ^ n) (above i : Nat) :
    (low + 2 ^ n * above).testBit i = if i < n then low.testBit i else above.testBit (i - n) := by
  rw [Nat.add_comm, Nat.testBit_two_pow_mul_add above fits]

theorem DeviceState.code_lt (d : DeviceState) : d.code < 16 := by cases d <;> decide

theorem FaultReason.code_lt (f : FaultReason) : f.code < 16 := by cases f <;> decide

theorem ResetKind.code_lt (k : ResetKind) : k.code < 4 := by cases k <;> decide

theorem getLsbD_word {n i : Nat} (inWord : i < 32) : (BitVec.ofNat 32 n).getLsbD i = n.testBit i := by
  rw [BitVec.getLsbD_ofNat, decide_eq_true inWord, Bool.true_and]

/-! ## CONTROL and CAUSE as a read returns them (R175) -/

/-- CONTROL is a row of nibbles with the run count above them. -/
theorem controlWord_eq (s : State) : s.controlWord = BitVec.ofNat 32 (s.run.device.code + 2 ^ 4 * (s.run.fault.code +
    2 ^ 4 * (s.run.lastReset.code + 2 ^ 4 * (s.irq.toNat + 2 ^ 4 * s.run.runCount.toNat)))) := by
  unfold State.controlWord
  congr 1
  omega

theorem getLsbD_controlWord (s : State) {i : Nat} (inWord : i < 32) : s.controlWord.getLsbD i =
    if i < 4 then s.run.device.code.testBit i else if i < 8 then s.run.fault.code.testBit (i - 4)
    else if i < 10 then s.run.lastReset.code.testBit (i - 8)
    else if i = 12 then s.irq else if i < 16 then false else s.run.runCount.getLsbD (i - 16) := by
  have kind_fits : s.run.lastReset.code < 2 ^ 4 := Nat.lt_trans s.run.lastReset.code_lt (by decide)
  have irq_fits : s.irq.toNat < 2 ^ 4 := Nat.lt_of_le_of_lt s.irq.toNat_le (by decide)
  rw [controlWord_eq, getLsbD_word inWord, testBit_field_add s.run.device.code_lt, testBit_field_add s.run.fault.code_lt,
    testBit_field_add kind_fits, testBit_field_add irq_fits, BitVec.testBit_toNat, Nat.testBit_bool_toNat]
  have kind_high (j : Nat) (high : 2 ≤ j) : s.run.lastReset.code.testBit j = false :=
    Nat.testBit_lt_two_pow (Nat.lt_of_lt_of_le s.run.lastReset.code_lt (Nat.pow_le_pow_right (Nat.succ_pos 1) high))
  simp only [Nat.sub_sub, Nat.reduceAdd]
  grind

theorem getLsbD_causeWord (s : State) {i : Nat} (inWord : i < 32) : s.causeWord.getLsbD i =
    if i < 7 then s.run.causes.getLsbD i else if i < 8 then false else s.topCause.testBit (i - 8) := by
  have causes_fit : s.run.causes.toNat < 2 ^ 8 := Nat.lt_trans s.run.causes.isLt (by decide)
  have word : s.causeWord = BitVec.ofNat 32 (s.run.causes.toNat + 2 ^ 8 * s.topCause) := rfl
  rw [word, getLsbD_word inWord, testBit_field_add causes_fit, BitVec.testBit_toNat]
  rcases Nat.lt_or_ge i 7 with cause | above
  · rw [if_pos cause, if_pos (by omega)]
  · rw [BitVec.getLsbD_of_ge _ _ above, if_neg (Nat.not_lt.2 above)]

/-! ## The interrupt request (R179) -/

theorem irq_iff (s : State) :
    s.irq = true ↔ ∃ i, i < 7 ∧ s.run.causes.getLsbD i = true ∧ s.run.enable.getLsbD i = true := by
  have no_bit : s.run.causes &&& s.run.enable = 0 ↔ ∀ i, (s.run.causes &&& s.run.enable).getLsbD i = false :=
    BitVec.zero_iff_eq_false
  rw [State.irq, bne_iff_ne, Ne, no_bit]
  simp only [BitVec.getLsbD_and, not_forall, Bool.not_eq_false, Bool.and_eq_true]
  constructor
  · rintro ⟨i, pending, enabled⟩
    exact ⟨i, BitVec.lt_of_getLsbD pending, pending, enabled⟩
  · rintro ⟨i, -, both⟩
    exact ⟨i, both⟩

/-! ## The bytes of a write (R175) -/

theorem testBit_byte_of (included : Bool) {j : Nat} (inByte : j < 8) : (if included then 0xFF else 0 : Nat).testBit j = included := by
  cases included
  · exact Nat.zero_testBit j
  · exact (Nat.testBit_two_pow_sub_one 8 j).trans (decide_eq_true inByte)

theorem byte_of_lt (included : Bool) : (if included then 0xFF else 0 : Nat) < 2 ^ 8 := by cases included <;> decide

theorem bytesMask_eq (bytes : BitVec 4) : bytesMask bytes = BitVec.ofNat 32 ((if bytes.getLsbD 0 then 0xFF else 0) +
    2 ^ 8 * ((if bytes.getLsbD 1 then 0xFF else 0) + 2 ^ 8 * ((if bytes.getLsbD 2 then 0xFF else 0) +
      2 ^ 8 * (if bytes.getLsbD 3 then 0xFF else 0)))) := by
  unfold bytesMask
  congr 1
  split_ifs <;> rfl

theorem getLsbD_bytesMask (bytes : BitVec 4) {i : Nat} (inWord : i < 32) : (bytesMask bytes).getLsbD i = bytes.getLsbD (i / 8) := by
  rw [bytesMask_eq, getLsbD_word inWord, testBit_field_add (byte_of_lt _), testBit_field_add (byte_of_lt _),
    testBit_field_add (byte_of_lt _)]
  have byte : i / 8 = 0 ∨ i / 8 = 1 ∨ i / 8 = 2 ∨ i / 8 = 3 := by omega
  rcases byte with h | h | h | h
  · rw [h, if_pos (by omega), testBit_byte_of _ (by omega)]
  · rw [h, if_neg (by omega), if_pos (by omega), testBit_byte_of _ (by omega)]
  · rw [h, if_neg (by omega), if_neg (by omega), if_pos (by omega), testBit_byte_of _ (by omega)]
  · rw [h, if_neg (by omega), if_neg (by omega), if_neg (by omega), testBit_byte_of _ (by omega)]

theorem getLsbD_mergeBytes (old new : Word32) (bytes : BitVec 4) {i : Nat} (inWord : i < 32) :
    (mergeBytes old new bytes).getLsbD i = if bytes.getLsbD (i / 8) then new.getLsbD i else old.getLsbD i := by
  rw [mergeBytes, BitVec.getLsbD_or, BitVec.getLsbD_and, BitVec.getLsbD_and, BitVec.getLsbD_not, getLsbD_bytesMask bytes inWord]
  cases bytes.getLsbD (i / 8) <;> simp [inWord]

/-! ## The alignment of AREA_LOW (R176) -/

/-- The bits of AREA_LOW that are always 0. -/
theorem getLsbD_lowMask {i : Nat} (inWord : i < 32) : (0xFFF : Word32).getLsbD i = decide (i < 12) :=
  (getLsbD_word inWord).trans (Nat.testBit_two_pow_sub_one 12 i)

theorem getLsbD_areaLow_of_baseOk {s : State} (aligned : s.baseOk) {i : Nat} (low : i < 12) : s.run.areaLow.getLsbD i = false := by
  have masked : (s.run.areaLow &&& 0xFFF).getLsbD i = false := by rw [aligned]; exact BitVec.getLsbD_zero
  rwa [BitVec.getLsbD_and, getLsbD_lowMask (by omega), decide_eq_true low, Bool.and_true] at masked

theorem getLsbD_aligned (w : Word32) {i : Nat} (inWord : i < 32) :
    (w &&& 0xFFFFF000).getLsbD i = if i < 12 then false else w.getLsbD i := by
  have mask : (0xFFFFF000 : Word32) = ~~~0xFFF := rfl
  rw [mask, BitVec.getLsbD_and, BitVec.getLsbD_not, getLsbD_lowMask inWord, decide_eq_true inWord]
  by_cases low : i < 12 <;> simp [low]

/-! ## The command that a write is (R170, R175) -/

/-- The command of a CONTROL write that includes byte 0, by its command code. -/
def controlCommand (v : Word32) (bytes : BitVec 4) : Nat → Instr
  | 1 => .run
  | 2 => .halt
  | 3 => .reset
  | 4 => .reheadOrders
  | 5 => .reheadPages
  | _ => .registerWriteOther 1 v bytes

theorem commandOfWrite_control (v : Word32) {bytes : BitVec 4} (included : bytes.getLsbD 0 = true) :
    commandOfWrite 1 v bytes = controlCommand v bytes (v.toNat % 16) := by
  unfold commandOfWrite
  rw [if_pos included]
  rfl

theorem commandOfWrite_control_excluded (v : Word32) {bytes : BitVec 4} (excluded : bytes.getLsbD 0 = false) :
    commandOfWrite 1 v bytes = .registerWriteOther 1 v bytes := by
  unfold commandOfWrite
  rw [excluded]
  rfl

theorem toNat_and_0xF (v : Word32) : (v &&& 0xF).toNat = v.toNat % 16 := by
  rw [BitVec.toNat_and]
  exact Nat.and_two_pow_sub_one_eq_mod v.toNat 4

/-- The command code is bits 3 to 0 of the value written. -/
theorem commandOfWrite_control_of_code {v code : Word32} {bytes : BitVec 4} (included : bytes.getLsbD 0 = true)
    (names : v &&& 0xF = code) : commandOfWrite 1 v bytes = controlCommand v bytes code.toNat := by
  rw [commandOfWrite_control v included, ← toNat_and_0xF, names]

theorem controlCommand_of_six_le (v : Word32) (bytes : BitVec 4) {code : Nat} (high : 6 ≤ code) :
    controlCommand v bytes code = .registerWriteOther 1 v bytes := by
  obtain ⟨n, rfl⟩ := Nat.exists_eq_add_of_le' high
  rfl

/-- A CONTROL write without byte 0 or with a code that names no command. -/
theorem commandOfWrite_control_other {v : Word32} {bytes : BitVec 4}
    (other : bytes.getLsbD 0 = false ∨ v &&& 0xF = 0 ∨ 6 ≤ v.toNat % 16) :
    commandOfWrite 1 v bytes = .registerWriteOther 1 v bytes := by
  cases included : bytes.getLsbD 0 with
  | false => exact commandOfWrite_control_excluded v included
  | true =>
    rcases other with excluded | zero | high
    · exact absurd excluded (by simp [included])
    · exact commandOfWrite_control_of_code included zero
    · exact (commandOfWrite_control v included).trans (controlCommand_of_six_le v bytes high)

/-- IDENT, CAUSE and the offsets that name no register. -/
theorem commandOfWrite_no_command (reg : Fin 8) (v : Word32) (bytes : BitVec 4) (other : reg = 0 ∨ 5 ≤ reg.val) :
    commandOfWrite reg v bytes = .registerWriteOther reg v bytes := by
  match reg, other with
  | 0, _ | 5, _ | 6, _ | 7, _ => rfl

/-! ## The accesses with a command of their own (R176, R180) -/

theorem exec_registerWriteOther (reg : Fin 8) (v : Word32) (bytes : BitVec 4) (s : State) :
    exec (.registerWriteOther reg v bytes) s = .next s := rfl

theorem exec_areaWrite (high : Bool) (v : Word32) (bytes : BitVec 4) (s : State) :
    exec (.areaWrite high v bytes) s = .next (s.writeArea high v bytes) := rfl

theorem exec_causeRead (bytes : BitVec 4) (s : State) : exec (.causeRead bytes) s = .next (s.readCause bytes) := rfl

theorem writeArea_high {s : State} (v : Word32) (bytes : BitVec 4) (takes : s.run.device = .resetIdle ∨ s.run.device = .stopped) :
    s.writeArea true v bytes = { s with run.areaHigh := mergeBytes s.run.areaHigh v bytes } := by
  rcases takes with h | h <;> simp only [State.writeArea, h, if_true]

theorem writeArea_low {s : State} (v : Word32) (bytes : BitVec 4) (takes : s.run.device = .resetIdle ∨ s.run.device = .stopped) :
    s.writeArea false v bytes = { s with run.areaLow := mergeBytes s.run.areaLow v bytes &&& 0xFFFFF000 } := by
  rcases takes with h | h <;> simp only [State.writeArea, h, Bool.false_eq_true, if_false]

theorem writeArea_ignored {s : State} (high : Bool) (v : Word32) (bytes : BitVec 4) (notIdle : s.run.device ≠ .resetIdle)
    (notStopped : s.run.device ≠ .stopped) : s.writeArea high v bytes = s := by
  unfold State.writeArea
  split
  · exact absurd ‹_› notIdle
  · exact absurd ‹_› notStopped
  all_goals rfl

/-- Settles O11: the reads by the fields of their words, the writes by the command each of them is, and the commands of the window by what
they do. -/
theorem registerWindow : Obligations.RegisterWindow := by
  unfold Obligations.RegisterWindow
  intro s v bytes device reason kind
  refine ⟨rfl, fun i => getLsbD_controlWord s, rfl, fun aligned i => getLsbD_areaLow_of_baseOk aligned, rfl, rfl,
    fun i => getLsbD_causeWord s, rfl, rfl, irq_iff s, fun included => ?_, rfl, rfl, rfl, ?_,
    fun reg => exec_registerWriteOther reg v bytes s, fun high takes => ?_, fun high idle stopped => ?_,
    s.readCause bytes, exec_causeRead bytes s, rfl⟩
  · have named {code : Word32} (names : v &&& 0xF = code) := commandOfWrite_control_of_code included names
    exact ⟨named, named, named, named, named⟩
  · rintro reg (⟨rfl, other⟩ | other)
    · exact commandOfWrite_control_other other
    · exact commandOfWrite_no_command reg v bytes other
  · refine ⟨_, exec_areaWrite high v bytes s, ?_⟩
    cases high with
    | true =>
      rw [writeArea_high v bytes takes]
      exact ⟨rfl, fun _ i inWord => getLsbD_mergeBytes _ v bytes inWord, nofun⟩
    | false =>
      rw [writeArea_low v bytes takes]
      refine ⟨rfl, nofun, fun _ i inWord => ?_⟩
      rw [← getLsbD_mergeBytes s.run.areaLow v bytes inWord]
      exact getLsbD_aligned _ inWord
  · rw [exec_areaWrite, writeArea_ignored high v bytes idle stopped]

end Sys2Proof.Machine
end

section
/-! PROOFS. The end of an event (R126, R127, R131, R133, R155, R162 to R164, R167): what each of its four parts does, when each finds nothing
to do, and what the four together leave. -/

namespace Sys2Proof.Machine

/-! ## Fields in a block of bytes (R183, R186) -/

theorem field1_of_byteAt {data : List Byte} {i n : Nat} (b0 : byteAt data i = BitVec.ofNat 8 n) : field1 data i = n % 256 := by
  rw [field1, b0, BitVec.toNat_ofNat]

theorem field2_of_byteAt {data : List Byte} {i n : Nat} (b0 : byteAt data i = BitVec.ofNat 8 n)
    (b1 : byteAt data (i + 1) = BitVec.ofNat 8 (n / 256)) : field2 data i = n % 65536 := by
  rw [field2, field1_of_byteAt b0, field1_of_byteAt b1]
  omega

/-- The four bytes of a word, lowest first, are the field that holds it. -/
theorem field4_of_byteAt {data : List Byte} {i : Nat} {w : Word32} (b0 : byteAt data i = BitVec.ofNat 8 w.toNat)
    (b1 : byteAt data (i + 1) = BitVec.ofNat 8 (w.toNat / 256)) (b2 : byteAt data (i + 2) = BitVec.ofNat 8 (w.toNat / 256 / 256))
    (b3 : byteAt data (i + 3) = BitVec.ofNat 8 (w.toNat / 256 / 256 / 256)) : field4 data i = w := by
  have low := field2_of_byteAt b0 b1
  have high := field2_of_byteAt b2 b3
  apply BitVec.eq_of_toNat_eq
  rw [field4, low, high, BitVec.toNat_ofNat]
  have := w.isLt
  omega

/-! ## The engine (R167) -/

/-- A requester is busy just when it asks for something. -/
theorem busy_iff_asks (s : State) (w : Requester) : s.dma.busy w = true ↔ ∃ r, s.asks w r := by
  refine ⟨fun busy => ?_, fun ⟨r, asks⟩ => asks_busy asks⟩
  cases hg : s.dma.granted with
  | some g =>
    by_cases hw : g.who = w
    · exact ⟨g.req, .inr ⟨g, hg, hw, rfl⟩⟩
    · cases w <;> simp_all [Arbiter.busy, Arbiter.holds, State.asks, Arbiter.waitingOf, Option.isSome_iff_exists]
  | none => cases w <;> simp_all [Arbiter.busy, Arbiter.holds, State.asks, Arbiter.waitingOf, Option.isSome_iff_exists]

theorem busy_congr {s t : State} (dma : t.dma = s.dma) (w : Requester) : t.dma.busy w = s.dma.busy w := by rw [dma]

/-- Granting takes nobody's request away and asks for nobody: a waiting request becomes the granted one. -/
theorem grant_busy (s : State) (w : Requester) : s.grant.dma.busy w = s.dma.busy w := by
  unfold State.grant
  split
  · rfl
  · next free =>
    split
    · rfl
    · split
      · rfl
      · next v r hv =>
        have waiting := next_some hv
        cases v <;> cases w <;> simp_all [Arbiter.busy, Arbiter.holds, Arbiter.waitingOf, Arbiter.drop]

theorem request_busy_self (s : State) (w : Requester) (r : Request) : (s.request w r).dma.busy w = true :=
  asks_busy (asks_request s w r)

/-! ## A close begun (R131) -/

/-- The write of the header body with which a close begins. -/
def State.closeRequest (s : State) (page : OpenPage) (why : CloseReason) : Request :=
  writeRequest .headerBodyWrite (page.offset + 1)
    (byte1 why.code ++ maskBytes 1 page.lanes ++ byte1 page.count ++ byte4 s.journal.pageSeq ++
      byte4 (page.firstSeq.getD 0) ++ byte2 page.used ++ [0, 0] ++ byte4 page.openTime ++ byte4 s.run.clock ++ [0, 0, 0, 0])

/-- The journal writer when a close of `page` has begun. -/
def State.closing (s : State) (page : OpenPage) (why : CloseReason) : State :=
  { s with journal := { s.journal with
      page := some { page with closing := some why, closeTime := s.run.clock, lingerDue := false }, linger := none } }

theorem beginClose_eq (s : State) (page : OpenPage) (why : CloseReason) :
    s.beginClose page why = (s.closing page why).request .journal (s.closeRequest page why) := rfl

/-- The blocks of a structure written out byte by byte. -/
theorem byte1_eq (n : Nat) : byte1 n = [BitVec.ofNat 8 n] := rfl

theorem byte2_eq (n : Nat) : byte2 n = [BitVec.ofNat 8 n, BitVec.ofNat 8 (n / 256)] := rfl

theorem byte4_eq (w : Word32) : byte4 w = [BitVec.ofNat 8 w.toNat, BitVec.ofNat 8 (w.toNat / 256),
    BitVec.ofNat 8 (w.toNat / 256 / 256), BitVec.ofNat 8 (w.toNat / 256 / 256 / 256)] := rfl

theorem maskBytes_one {w : Nat} (v : BitVec w) : maskBytes 1 v = [BitVec.ofNat 8 v.toNat] := rfl

theorem headerBody_closeRequest (s : State) (page : OpenPage) (why : CloseReason) :
    HeaderBody page why s.journal.pageSeq s.run.clock (s.closeRequest page why) := by
  unfold State.closeRequest HeaderBody writeRequest
  simp only [byte1_eq, byte2_eq, byte4_eq, maskBytes_one, List.cons_append, List.nil_append, true_and]
  refine ⟨rfl, rfl, ?_, ?_, rfl, field4_of_byteAt rfl rfl rfl rfl, fun n hn => ?_, field2_of_byteAt rfl rfl, rfl,
    field4_of_byteAt rfl rfl rfl rfl, field4_of_byteAt rfl rfl rfl rfl, rfl⟩
  · cases why <;> rfl
  · exact BitVec.ofNat_toNat 8 page.lanes
  · rw [hn]
    exact field4_of_byteAt rfl rfl rfl rfl

/-! ## The record pump (R126, R127) -/

/-- The open page `page` may take a write: FILLING, with no close and no request of the journal writer's in flight. -/
def State.pageFree (s : State) (page : OpenPage) : Prop :=
  s.journal.state = .filling ∧ s.journal.page = some page ∧ page.closing = none ∧ s.dma.busy .journal = false

/-- The write of the head record `r` behind the units used. -/
def recordRequest (page : OpenPage) (r : StagedRecord) : Request :=
  writeRequest .recordWrite (page.offset + BitVec.ofNat 32 (32 + 8 * page.used)) r.bytes

theorem pumpRecord_free {s : State} {page : OpenPage} {r : StagedRecord} {rest : List StagedRecord} (free : s.pageFree page)
    (queue : s.staging.queue = r :: rest) :
    s.pumpRecord = if r.body.units ≤ usableUnits s.unit.host.pageCode - page.used then s.request .journal (recordRequest page r)
      else s.beginClose page .full := by
  obtain ⟨filling, open_, notClosing, idle⟩ := free
  simp only [State.pumpRecord, filling, open_, queue, notClosing, idle, Option.isSome_none, Bool.or_self, Bool.false_eq_true,
    if_false, recordRequest]

theorem pumpRecord_idle {s : State} (h : s.staging.queue = [] ∨ ∀ page, ¬s.pageFree page) : s.pumpRecord = s := by
  unfold State.pumpRecord
  split
  · next page r rest filling open_ queue =>
    split
    · rfl
    · next free =>
      rw [Bool.or_eq_true, not_or] at free
      rcases h with h | h
      · simp [queue] at h
      · exact absurd ⟨filling, open_, by simpa using free.1, by simpa using free.2⟩ (h page)
  · rfl

/-! ## The end of the drain (R133) -/

theorem pumpDrain_free {s : State} {page : OpenPage} (ends : s.drained = true) (free : s.pageFree page) :
    s.pumpDrain = if page.count = 0 then s.releasePage else s.beginClose page .stop := by
  obtain ⟨filling, open_, notClosing, idle⟩ := free
  simp only [State.pumpDrain, ends, filling, open_, notClosing, idle, Option.isSome_none, Bool.or_self, Bool.false_eq_true,
    if_false, if_true]

theorem pumpDrain_halts {s : State} (ends : s.drained = true) (h : s.journal.state = .starved ∨ s.journal.state = .broken) :
    s.pumpDrain = s.haltJournal := by
  rcases h with h | h <;> simp only [State.pumpDrain, ends, h, if_true]

theorem pumpDrain_idle {s : State} (h : s.drained = false ∨
    (s.journal.state ≠ .starved ∧ s.journal.state ≠ .broken ∧ ∀ page, ¬s.pageFree page)) : s.pumpDrain = s := by
  unfold State.pumpDrain
  split
  · next ends =>
    obtain ⟨notStarved, notBroken, notFree⟩ := h.resolve_left (by simp [ends])
    split
    · next page filling open_ =>
      split
      · rfl
      · next free =>
        rw [Bool.or_eq_true, not_or] at free
        exact absurd ⟨filling, open_, by simpa using free.1, by simpa using free.2⟩ (notFree page)
    · next starved => exact absurd starved notStarved
    · next broken => exact absurd broken notBroken
    · rfl
  · rfl

/-! ## The settings unit's next request (R155, R164) -/

theorem rewriteTarget_asks (s : State) (t : StatusTarget) : ∃ r, (s.rewriteTarget t).asks .settings r := by
  cases t with
  | device => exact ⟨_, asks_request _ _ _⟩
  | lane l => exact ⟨_, asks_request _ _ _⟩

/-- Something that the settings unit has to ask for now: in LOADING what the load calls for, in a run the reload or a rewrite. -/
def State.unitWork (s : State) : Prop :=
  match s.run.device with
  | .loading => s.unit.load = .hostPart ∨ (∃ l, s.unit.load = .laneRecord l) ∨ (∃ left, s.unit.load = .status left) ∧ s.nextRewrite ≠ none
  | .running | .stopping | .stopped => s.unit.reload ≠ none ∨ s.nextRewrite ≠ none
  | .resetIdle | .faulted => False

theorem pumpSettings_busy {s : State} (busy : s.dma.busy .settings = true) : s.pumpSettings = s := by
  simp only [State.pumpSettings, busy, if_true]

/-- An idle settings unit with work asks for it, and one without does nothing. -/
theorem pumpSettings_idle {s : State} (idle : s.dma.busy .settings = false) :
    (s.unitWork → ∃ r, s.pumpSettings.asks .settings r) ∧ (¬s.unitWork → s.pumpSettings = s) := by
  have rewrites : (s.nextRewrite ≠ none → ∃ r, s.pumpRewrite.asks .settings r) ∧ (s.nextRewrite = none → s.pumpRewrite = s) := by
    unfold State.pumpRewrite
    cases s.nextRewrite with
    | none => simp
    | some t => simpa using rewriteTarget_asks s t
  have runs : (s.unit.reload ≠ none ∨ s.nextRewrite ≠ none → ∃ r, s.pumpRun.asks .settings r) ∧
      (¬(s.unit.reload ≠ none ∨ s.nextRewrite ≠ none) → s.pumpRun = s) := by
    unfold State.pumpRun
    split
    · next l h => simpa [h] using ⟨_, asks_request s .settings _⟩
    · next l a h => simpa [h, State.writeLaneStatus] using ⟨_, asks_request _ .settings _⟩
    · next h => simpa [h] using rewrites
  have loads : (s.unit.load = .hostPart ∨ (∃ l, s.unit.load = .laneRecord l) ∨
        (∃ left, s.unit.load = .status left) ∧ s.nextRewrite ≠ none → ∃ r, s.pumpLoad.asks .settings r) ∧
      (¬(s.unit.load = .hostPart ∨ (∃ l, s.unit.load = .laneRecord l) ∨
        (∃ left, s.unit.load = .status left) ∧ s.nextRewrite ≠ none) → s.pumpLoad = s) := by
    unfold State.pumpLoad State.pumpStatus
    split
    · next h => simp [h]
    · next h => simpa [h] using ⟨_, asks_request s .settings _⟩
    · next l h => simpa [h] using ⟨_, asks_request s .settings _⟩
    · next left h =>
      cases hn : s.nextRewrite with
      | none => simp [h]
      | some t =>
        obtain ⟨r, hr⟩ := rewriteTarget_asks s t
        simpa [h] using ⟨r, (asks_congr (s := s.rewriteTarget t) rfl).2 hr⟩
  simp only [State.unitWork, State.pumpSettings, idle, Bool.false_eq_true, if_false]
  cases s.run.device with
  | loading => exact loads
  | running | stopping | stopped => exact runs
  | resetIdle | faulted => exact ⟨False.elim, fun _ => rfl⟩

/-! ## Nothing left to do -/

/-- One of the four parts of the event's end has something to do. -/
inductive State.workLeft (s : State) : Prop where
  | record {page : OpenPage} (free : s.pageFree page) (queue : s.staging.queue ≠ [])
  | page {page : OpenPage} (ends : s.drained = true) (free : s.pageFree page)
  | halt (ends : s.drained = true) (state : s.journal.state = .starved ∨ s.journal.state = .broken)
  | unit (idle : s.dma.busy .settings = false) (work : s.unitWork)
  | grant (free : s.dma.granted = none) (device : s.run.device ≠ .faulted) {w : Requester} {r : Request}
      (waits : s.dma.waitingOf w = some r)

theorem grant_idle {s : State} (h : s.dma.granted = none → s.run.device ≠ .faulted → ∀ w, s.dma.waitingOf w = none) : s.grant = s := by
  unfold State.grant
  split
  · rfl
  · next free =>
    split
    · rfl
    · next device =>
      split
      · rfl
      · next w r hv => simpa [h free device w] using next_some hv

theorem settled_of_not_workLeft {s : State} (h : ¬s.workLeft) : s.settled := by
  have e1 : s.pumpRecord = s := pumpRecord_idle (by
    by_contra c
    rw [not_or, not_forall] at c
    obtain ⟨queue, page, free⟩ := c
    exact h (.record (not_not.1 free) queue))
  have e2 : s.pumpDrain = s := pumpDrain_idle (by
    cases ends : s.drained with
    | false => exact .inl rfl
    | true =>
      exact .inr ⟨fun e => h (.halt ends (.inl e)), fun e => h (.halt ends (.inr e)), fun page free => h (.page ends free)⟩)
  have e3 : s.pumpSettings = s := by
    cases idle : s.dma.busy .settings with
    | true => exact pumpSettings_busy idle
    | false => exact (pumpSettings_idle idle).2 fun work => h (.unit idle work)
  have e4 : s.grant = s := grant_idle fun free device w => by
    cases waits : s.dma.waitingOf w with
    | none => rfl
    | some r => exact absurd (.grant free device waits) h
  rw [State.settled, State.settle, e1, e2, e3, e4]

/-- The first three parts of the settling, before the grant. -/
theorem settle_eq (s : State) : s.settle = s.pumpRecord.pumpDrain.pumpSettings.grant := rfl

/-- What a requester asks for at any point of the settling it still asks for at its end. -/
theorem busy_pumpDrain {s : State} {w : Requester} (busy : s.dma.busy w = true) : s.pumpDrain.dma.busy w = true := by
  obtain ⟨r, asks⟩ := (busy_iff_asks s w).1 busy
  exact asks_busy (asks_pumpDrain asks)

theorem busy_pumpRecord {s : State} {w : Requester} (busy : s.dma.busy w = true) : s.pumpRecord.dma.busy w = true := by
  obtain ⟨r, asks⟩ := (busy_iff_asks s w).1 busy
  exact asks_busy (asks_pumpRecord asks)

theorem busy_pumpSettings {s : State} {w : Requester} (busy : s.dma.busy w = true) : s.pumpSettings.dma.busy w = true := by
  obtain ⟨r, asks⟩ := (busy_iff_asks s w).1 busy
  exact asks_busy (asks_pumpSettings asks)

/-- The settings unit leaves the journal writer as it is. -/
theorem pumpSettings_journal (s : State) : s.pumpSettings.journal = s.journal := by
  unfold State.pumpSettings State.pumpLoad State.pumpStatus State.pumpRun State.pumpRewrite State.rewriteTarget
    State.writeDeviceStatus State.writeLaneStatus
  repeat' split
  all_goals rfl

theorem pumpSettings_dma_journal (s : State) : s.pumpSettings.dma.busy .journal = s.dma.busy .journal := by
  unfold State.pumpSettings State.pumpLoad State.pumpStatus State.pumpRun State.pumpRewrite State.rewriteTarget
    State.writeDeviceStatus State.writeLaneStatus
  repeat' split
  all_goals rfl

/-- The journal writer and run control after the first two parts of the settling, which the other two leave alone. -/
theorem settle_journal (s : State) : s.settle.journal = s.pumpRecord.pumpDrain.journal ∧
    s.settle.run = s.pumpRecord.pumpDrain.run ∧ s.settle.dma.busy .journal = s.pumpRecord.pumpDrain.dma.busy .journal ∧
    ∀ m, (s.settle.lane m).kb = (s.pumpRecord.pumpDrain.lane m).kb := by
  have quiet := (QuietFrame.pumpSettings s.pumpRecord.pumpDrain).trans (QuietFrame.grant _)
  rw [settle_eq]
  refine ⟨?_, quiet.run, ?_, fun m => ?_⟩
  · rw [grant_journal, pumpSettings_journal]
  · rw [grant_busy, pumpSettings_dma_journal]
  · rw [quiet.lanes m]

theorem State.pageFree.before {s t : State} {page : OpenPage} (free : t.pageFree page) (journal : t.journal = s.journal)
    (busy : s.dma.busy .journal = true → t.dma.busy .journal = true) : s.pageFree page := by
  obtain ⟨filling, open_, notClosing, idle⟩ := free
  rw [journal] at filling open_
  refine ⟨filling, open_, notClosing, ?_⟩
  rw [← Bool.not_eq_true]
  intro h
  simp [busy h] at idle

/-- A record pump that had something to do has made the journal writer busy. -/
theorem not_pageFree_pumpRecord {s : State} (queue : s.staging.queue ≠ []) (page : OpenPage) : ¬s.pumpRecord.pageFree page := by
  intro free
  by_cases h : ∃ page, s.pageFree page
  · obtain ⟨page', free'⟩ := h
    obtain ⟨r, rest, hq⟩ := List.exists_cons_of_ne_nil queue
    obtain ⟨-, -, -, idle⟩ := free
    rw [pumpRecord_free free' hq] at idle
    split at idle
    · simp [request_busy_self] at idle
    · simp [beginClose_eq, request_busy_self] at idle
  · rw [pumpRecord_idle (.inr (not_exists.1 h))] at free
    exact h ⟨page, free⟩

/-- The pump at the end of the drain leaves it with nothing to do: a close makes the journal writer busy, and otherwise it is HALTED. -/
theorem pumpDrain_done {s : State} (ends : s.drained = true) :
    s.pumpDrain.journal.state ≠ .starved ∧ s.pumpDrain.journal.state ≠ .broken ∧ ∀ page, ¬s.pumpDrain.pageFree page := by
  have halted {t : State} (h : t.journal.state = .halted) :
      t.journal.state ≠ .starved ∧ t.journal.state ≠ .broken ∧ ∀ page, ¬t.pageFree page := by
    refine ⟨by simp [h], by simp [h], fun page free => ?_⟩
    have := free.1
    rw [h] at this
    cases this
  by_cases states : s.journal.state = .starved ∨ s.journal.state = .broken
  · rw [pumpDrain_halts ends states]
    exact halted (by rw [(haltJournal_spec s).1])
  · by_cases h : ∃ page, s.pageFree page
    · obtain ⟨page, free⟩ := h
      rw [pumpDrain_free ends free]
      split
      · exact halted (by rw [State.releasePage, (haltJournal_spec _).1])
      · refine ⟨?_, ?_, fun page' free' => ?_⟩
        · rw [beginClose_eq, request_journal]; simp [State.closing, free.1]
        · rw [beginClose_eq, request_journal]; simp [State.closing, free.1]
        · have := free'.2.2.2
          simp [beginClose_eq, request_busy_self] at this
    · rw [not_or] at states
      rw [pumpDrain_idle (.inr ⟨states.1, states.2, not_exists.1 h⟩)]
      exact ⟨states.1, states.2, not_exists.1 h⟩

/-- What the settings unit has to do depends on run control, its own state and the rewrite flags. -/
theorem unitWork_congr {s t : State} (run : t.run = s.run) (unit : t.unit = s.unit) (lanes : t.lanes = s.lanes) :
    t.unitWork ↔ s.unitWork := by
  have next : t.nextRewrite = s.nextRewrite := by
    simp only [State.nextRewrite, State.rewriteLane, unit, State.lane, lanes]
  simp only [State.unitWork, run, unit, next]

/-- The settling leaves nothing behind that it would have to do. -/
theorem not_workLeft_settle (s : State) : ¬s.settle.workLeft := by
  have quiet := (QuietFrame.pumpSettings s.pumpRecord.pumpDrain).trans (QuietFrame.grant _)
  have journal : s.settle.journal = s.pumpRecord.pumpDrain.journal := (settle_journal s).1
  have busy : s.pumpRecord.pumpDrain.dma.busy .journal = true → s.settle.dma.busy .journal = true := by
    rw [(settle_journal s).2.2.1]; exact id
  rintro (⟨free, queue⟩ | ⟨ends, free⟩ | ⟨ends, state⟩ | ⟨idle, work⟩ | ⟨free, device, waits⟩)
  case record page =>
    have kept : s.staging.queue ≠ [] := by rwa [← (settle_frame s).staging]
    have notEnds : s.pumpRecord.drained = false := by
      simp [State.drained, (QuietFrame.pumpRecord s).staging, kept]
    have free' := free.before journal busy
    rw [pumpDrain_idle (.inl notEnds)] at free'
    exact not_pageFree_pumpRecord kept page free'
  case page page =>
    have free' := free.before journal busy
    have ends' : s.pumpRecord.pumpDrain.drained = true := by rw [← quiet.drained]; exact ends
    cases before : s.pumpRecord.drained with
    | true => exact (pumpDrain_done before).2.2 page free'
    | false => rw [pumpDrain_idle (.inl before), before] at ends'; cases ends'
  case halt =>
    have ends' : s.pumpRecord.pumpDrain.drained = true := by rw [← quiet.drained]; exact ends
    rw [journal] at state
    cases before : s.pumpRecord.drained with
    | true => exact state.elim (pumpDrain_done before).1 (pumpDrain_done before).2.1
    | false => rw [pumpDrain_idle (.inl before), before] at ends'; cases ends'
  case unit =>
    rw [settle_eq, grant_busy] at idle
    cases before : s.pumpRecord.pumpDrain.dma.busy .settings with
    | true => simp [busy_pumpSettings before] at idle
    | false =>
      obtain ⟨asks, rests⟩ := pumpSettings_idle before
      by_cases h : s.pumpRecord.pumpDrain.unitWork
      · obtain ⟨r, hr⟩ := asks h
        simp [asks_busy hr] at idle
      · rw [settle_eq, unitWork_congr (grant_run _) (grant_unit _) (grant_lanes _), rests h] at work
        exact h work
  case grant w r =>
    obtain ⟨hj, hw, hs⟩ := settle_engineOk s device free
    cases w <;> simp_all [Arbiter.waitingOf]

/-- The settling leads to a settled state, from every state. -/
theorem settle_settled (s : State) : s.settle.settled := settled_of_not_workLeft (not_workLeft_settle s)

theorem settled_iff (s : State) : s.settled ↔ ¬s.workLeft := by
  refine ⟨fun h => ?_, settled_of_not_workLeft⟩
  rw [← show s.settle = s from h]
  exact not_workLeft_settle s

/-- What is left to do depends on run control's device state, the queue's emptiness, the losses, the journal writer, the settings unit, the
rewrite flags and the engine: a step that moves none of them keeps a settled state settled. -/
theorem State.settled.congr {s t : State} (h : s.settled) (device : t.run.device = s.run.device)
    (done : t.run.walkerDone = s.run.walkerDone) (lanes : ∀ m, (t.lane m).rewrite = (s.lane m).rewrite ∧ (t.lane m).losses = (s.lane m).losses)
    (queue : t.staging.queue = s.staging.queue) (state : t.journal.state = s.journal.state) (page : t.journal.page = s.journal.page)
    (unit : t.unit = s.unit) (dma : t.dma = s.dma) : t.settled := by
  rw [settled_iff] at h ⊢
  have free {p : OpenPage} (f : t.pageFree p) : s.pageFree p := by
    rwa [State.pageFree, state, page, dma] at f
  have drained : t.drained = s.drained := by
    simp only [State.drained, State.anyLoss, LaneUnit.hasLoss, device, done, queue, fun m => (lanes m).2]
  have next : t.nextRewrite = s.nextRewrite := by
    simp only [State.nextRewrite, State.rewriteLane, unit, fun m => (lanes m).1]
  rintro (⟨f, q⟩ | ⟨ends, f⟩ | ⟨ends, st⟩ | ⟨idle, work⟩ | ⟨none, dev, waits⟩)
  · exact h (.record (free f) (by rwa [← queue]))
  · exact h (.page (by rwa [← drained]) (free f))
  · exact h (.halt (by rwa [← drained]) (by rwa [← state]))
  · exact h (.unit (by rwa [← dma]) (by rwa [State.unitWork, device, unit, next] at work))
  · exact h (.grant (by rwa [← dma]) (by rwa [← device]) (by rwa [dma] at waits))

/-! ## What the end of an event asks of the journal writer (R126, R127, R131, R133) -/

theorem asks_settle_of_pumpRecord {s : State} {w : Requester} {r : Request} (asks : s.pumpRecord.asks w r) : s.settle.asks w r :=
  asks_grant (asks_pumpSettings (asks_pumpDrain asks))

theorem asks_settle_of_pumpDrain {s : State} {w : Requester} {r : Request} (asks : s.pumpRecord.pumpDrain.asks w r) :
    s.settle.asks w r :=
  asks_grant (asks_pumpSettings asks)

theorem asks_beginClose_self (s : State) (page : OpenPage) (why : CloseReason) :
    (s.beginClose page why).asks .journal (s.closeRequest page why) := by
  rw [beginClose_eq]
  exact asks_request _ _ _

/-- `t` is the end of an event in whose course a close of `page` has begun. -/
def Closes (m t : State) (page : OpenPage) (why : CloseReason) : Prop :=
  t.run = m.run ∧ t.journal = (m.closing page why).journal ∧
    ∃ q, t.asks .journal q ∧ HeaderBody page why m.journal.pageSeq m.run.clock q

/-- `t` is the end of an event in which the journal writer, its page work as in `j`, has become HALTED (R133). -/
def Halts (m t : State) (j : Journal) : Prop :=
  t.journal = { j with state := .halted, linger := none, recheck := none, episode := false, reread := false, rehead := false } ∧
    t.run = { m.run with device := .stopped, journalDone := true } ∧ t.dma.busy .journal = m.dma.busy .journal ∧
    ∀ l, (t.lane l).kb.capture = none

/-- `t` is the end of an event that asks nothing of the journal writer. -/
def JournalStays (m t : State) : Prop :=
  t.journal = m.journal ∧ t.run = m.run ∧ t.dma.busy .journal = m.dma.busy .journal

theorem closes_settle {m : State} {page : OpenPage} {why : CloseReason} (h : m.pumpRecord.pumpDrain = m.beginClose page why) :
    Closes m m.settle page why := by
  obtain ⟨journal, run, -, -⟩ := settle_journal m
  refine ⟨by rw [run, h]; rfl, by rw [journal, h]; rfl, m.closeRequest page why, asks_settle_of_pumpDrain ?_,
    headerBody_closeRequest m page why⟩
  rw [h]
  exact asks_beginClose_self m page why

theorem halts_settle {m n : State} (h : m.pumpRecord.pumpDrain = n.haltJournal) (run : n.run = m.run) (dma : n.dma = m.dma) :
    Halts m m.settle n.journal := by
  obtain ⟨journal, run', busy, kb⟩ := settle_journal m
  obtain ⟨hj, hr, -, hl, -, -, hd, -⟩ := haltJournal_spec n
  refine ⟨by rw [journal, h, hj], by rw [run', h, hr, run], by rw [busy, h, hd, dma], fun l => ?_⟩
  rw [kb, h, hl]
  rfl

theorem journalStays_settle {m : State} (h : m.pumpRecord.pumpDrain = m) : JournalStays m m.settle := by
  obtain ⟨journal, run, busy, -⟩ := settle_journal m
  exact ⟨by rw [journal, h], by rw [run, h], by rw [busy, h]⟩

theorem drained_of_queue {m : State} {r : StagedRecord} {rest : List StagedRecord} (queue : m.staging.queue = r :: rest) :
    m.drained = false := by
  simp [State.drained, queue]

theorem queue_of_drained {m : State} (ends : m.drained = true) : m.staging.queue = [] :=
  ((drained_iff m).1 ends).2.2.1

/-- A record waits for a free page: it is written when it fits, and otherwise the page closes with FULL. -/
theorem settle_record {m : State} {page : OpenPage} {r : StagedRecord} {rest : List StagedRecord} (free : m.pageFree page)
    (queue : m.staging.queue = r :: rest) :
    (r.body.units ≤ usableUnits m.unit.host.pageCode - page.used →
      m.settle.journal = m.journal ∧ m.settle.run = m.run ∧ m.settle.asks .journal (recordRequest page r)) ∧
    (usableUnits m.unit.host.pageCode - page.used < r.body.units → Closes m m.settle page .full) := by
  have pump := pumpRecord_free free queue
  have notEnds : m.pumpRecord.drained = false := by
    rw [(QuietFrame.pumpRecord m).drained, drained_of_queue queue]
  have drain : m.pumpRecord.pumpDrain = m.pumpRecord := pumpDrain_idle (.inl notEnds)
  refine ⟨fun fits => ?_, fun full => closes_settle ?_⟩
  · rw [if_pos fits] at pump
    obtain ⟨journal, run, -, -⟩ := settle_journal m
    refine ⟨by rw [journal, drain, pump]; rfl, by rw [run, drain, pump]; rfl, asks_settle_of_pumpRecord ?_⟩
    rw [pump]
    exact asks_request _ _ _
  · rw [drain, pump, if_neg (by omega)]

theorem settle_drainEnds {m : State} {page : OpenPage} (free : m.pageFree page) (ends : m.drained = true) :
    (page.count ≠ 0 → Closes m m.settle page .stop) ∧ (page.count = 0 → Halts m m.settle { m.journal with page := none }) := by
  have pump : m.pumpRecord = m := pumpRecord_idle (.inl (queue_of_drained ends))
  have drain := pumpDrain_free ends free
  refine ⟨fun some => closes_settle ?_, fun empty => ?_⟩
  · rw [pump, drain, if_neg some]
  · rw [if_pos empty] at drain
    exact halts_settle (n := { m with journal.page := none }) (by rw [pump, drain]; rfl) rfl rfl

/-- Where no record and no end of the drain finds a page that is free, and the journal writer is neither STARVED nor BROKEN at the end of the
drain, it stays as it is. -/
theorem settle_journalStays {m : State}
    (record : m.staging.queue = [] ∨ ∀ page, ¬m.pageFree page)
    (drain : m.drained = false ∨ (m.journal.state ≠ .starved ∧ m.journal.state ≠ .broken ∧ ∀ page, ¬m.pageFree page)) :
    JournalStays m m.settle :=
  journalStays_settle (by rw [pumpRecord_idle record, pumpDrain_idle drain])

/-- Settles O26: a page that is free by `settle_record` and `settle_drainEnds`, a journal writer with nothing more to do by `halts_settle`,
and every other case by `settle_journalStays`. -/
theorem eventEnd : Obligations.EventEnd := by
  unfold Obligations.EventEnd
  intro m
  have notFree (h : m.journal.state ≠ .filling) (page : OpenPage) : ¬m.pageFree page := fun free => h free.1
  refine ⟨fun page filling open_ notClosing idle => ?_, fun state => ?_, fun filling busy => ?_, fun page open_ closing filling => ?_,
    fun state => ?_⟩
  · have free : m.pageFree page := ⟨filling, open_, notClosing, idle⟩
    refine ⟨fun r rest queue => settle_record free queue, fun ends => (settle_drainEnds free ((drained_iff m).2 ends)).1,
      fun ends => (settle_drainEnds free ((drained_iff m).2 ends)).2, fun queue notEnds => ?_⟩
    rw [← drained_iff, Bool.not_eq_true] at notEnds
    exact settle_journalStays (.inl queue) (.inl notEnds)
  · have notFilling : m.journal.state ≠ .filling := by rcases state with h | h <;> simp [h]
    have pump := pumpRecord_idle (.inr (notFree notFilling))
    refine ⟨fun ends => halts_settle ?_ rfl rfl, fun notEnds => ?_⟩
    · rw [pump, pumpDrain_halts ((drained_iff m).2 ends) state]
    · rw [← drained_iff, Bool.not_eq_true] at notEnds
      exact settle_journalStays (.inr (notFree notFilling)) (.inl notEnds)
  · have none (page : OpenPage) : ¬m.pageFree page := fun ⟨_, _, _, idle⟩ => by simp [busy] at idle
    exact settle_journalStays (.inr none) (.inr ⟨by simp [filling], by simp [filling], none⟩)
  · have none (page' : OpenPage) : ¬m.pageFree page' := fun free => by
      obtain ⟨-, open', notClosing, -⟩ := free
      obtain rfl : page = page' := by simpa [open_] using open'
      simp [notClosing] at closing
    exact settle_journalStays (.inr none) (.inr ⟨by simp [filling], by simp [filling], none⟩)
  · have none := notFree (by rcases state with h | h | h <;> simp [h])
    exact settle_journalStays (.inr none) (.inr ⟨by rcases state with h | h | h <;> simp [h],
      by rcases state with h | h | h <;> simp [h], none⟩)

/-! ## The grant (R167, R168, R176) -/

theorem busy_of_free {d : Arbiter} (free : d.granted = none) (w : Requester) : d.busy w = (d.waitingOf w).isSome := by
  cases w <;> simp [Arbiter.busy, Arbiter.holds, Arbiter.waitingOf, free]

/-- The requester that a rotation of three names. -/
theorem next_three {d : Arbiter} {a b c w : Requester} {r : Request} (h : d.next [a, b, c] = some (w, r)) :
    w = if (d.waitingOf a).isSome then a else if (d.waitingOf b).isSome then b else c := by
  cases ha : d.waitingOf a with
  | some _ => simp_all [Arbiter.next]
  | none =>
    cases hb : d.waitingOf b with
    | some _ => simp_all [Arbiter.next]
    | none => cases hc : d.waitingOf c <;> simp_all [Arbiter.next]

/-- The grant to the free engine of a device that is not FAULTED, when nobody asks and when somebody does. -/
theorem grant_free {s : State} (free : s.dma.granted = none) (device : s.run.device ≠ .faulted) :
    (s.dma.next s.dma.last.rotation = none → s.grant = s) ∧
    (∀ w r, s.dma.next s.dma.last.rotation = some (w, r) →
      s.grant = { s with dma := { s.dma.drop w with granted := some { who := w, req := r, base := s.areaBase }, last := w } }) := by
  simp only [State.grant, free, if_neg device]
  exact ⟨fun h => by rw [h], fun w r h => by rw [h]⟩

theorem pumpRecord_last (s : State) : s.pumpRecord.dma.last = s.dma.last := by
  unfold State.pumpRecord
  repeat' split
  all_goals rfl

theorem pumpDrain_last (s : State) : s.pumpDrain.dma.last = s.dma.last := by
  unfold State.pumpDrain State.releasePage
  repeat' split
  all_goals first
    | rfl
    | rw [haltJournal_dma]

theorem pumpSettings_last (s : State) : s.pumpSettings.dma.last = s.dma.last := by
  unfold State.pumpSettings State.pumpLoad State.pumpStatus State.pumpRun State.pumpRewrite State.rewriteTarget
    State.writeDeviceStatus State.writeLaneStatus
  repeat' split
  all_goals rfl

/-- The state that an event's end hands to the arbiter. -/
def State.toGrant (s : State) : State := s.pumpRecord.pumpDrain.pumpSettings

theorem toGrant_spec (s : State) : s.settle = s.toGrant.grant ∧ s.toGrant.dma.granted = s.dma.granted ∧
    s.toGrant.dma.last = s.dma.last ∧ s.toGrant.areaBase = s.areaBase ∧
    (s.toGrant.run.device = .faulted ↔ s.run.device = .faulted) := by
  have run : s.toGrant.run = s.settle.run := by rw [settle_eq, grant_run]; rfl
  refine ⟨rfl, ?_, ?_, ?_, ?_⟩
  · rw [State.toGrant, pumpSettings_granted, pumpDrain_granted, pumpRecord_granted]
  · rw [State.toGrant, pumpSettings_last, pumpDrain_last, pumpRecord_last]
  · simp only [State.areaBase, run]
    rcases (settle_frame s).run with e | ⟨-, e⟩ <;> rw [e]
  · rw [run]
    rcases (settle_frame s).run with e | ⟨ends, e⟩ <;> rw [e]
    simp [drained_stopping ends]

/-- Settles O51: the engine as `toGrant` leaves it, granted by `grant_free` to the requester that `next_three` names. -/
theorem arbiterGrant : Obligations.ArbiterGrant := by
  unfold Obligations.ArbiterGrant
  intro m
  obtain ⟨settled, granted, last, base, faulted⟩ := toGrant_spec m
  refine ⟨fun g hg => ?_, fun free device => ?_, fun free device => ?_⟩
  · have : m.settle = m.toGrant := by rw [settled, State.grant, granted, hg]
    rw [this, granted, last]
    exact ⟨hg, rfl⟩
  · have : m.settle = m.toGrant := by
      rw [settled, State.grant, granted, free]
      exact if_pos (faulted.2 device)
    rw [this, granted, last]
    exact ⟨free, rfl⟩
  · have free' : m.toGrant.dma.granted = none := by rw [granted, free]
    obtain ⟨nobody, somebody⟩ := grant_free free' (fun h => device (faulted.1 h))
    have busy (w : Requester) : m.settle.dma.busy w = (m.toGrant.dma.waitingOf w).isSome := by
      rw [settled, grant_busy, busy_of_free free']
    cases next : m.toGrant.dma.next m.toGrant.dma.last.rotation with
    | none =>
      have same : m.settle = m.toGrant := by rw [settled, nobody next]
      refine ⟨fun _ => ⟨fun w r asks => ?_, by rw [same, last]⟩, fun g hg => ?_⟩
      · rw [same] at asks
        rcases asks with waits | ⟨g, hg, -, -⟩
        · rw [next_none next w (mem_rotation _ _)] at waits
          cases waits
        · rw [free'] at hg
          cases hg
      · rw [same, free'] at hg
        cases hg
    | some named =>
      obtain ⟨w, r⟩ := named
      have gave : m.settle.dma = { m.toGrant.dma.drop w with granted := some { who := w, req := r, base := m.areaBase }, last := w } := by
        rw [settled, somebody w r next, base]
      refine ⟨fun h => ?_, fun g hg => ?_⟩
      · rw [gave] at h
        cases h
      · obtain rfl : g = { who := w, req := r, base := m.areaBase } := by
          rw [gave] at hg
          exact (Option.some.inj hg).symm
        have turn (v : Requester) (h : m.dma.last = v) : m.toGrant.dma.next v.rotation = some (w, r) := by
          rw [← h, ← last, next]
        refine ⟨by rw [gave], ?_, rfl, fun h => ?_, fun h => ?_, fun h => ?_⟩
        · rw [gave]
          exact (drop_waitingOf m.toGrant.dma w w).trans (if_pos rfl)
        all_goals
          rw [busy, busy]
          exact next_three (turn _ h)

/-! ## What the end of an event asks of the settings unit (R147, R155, R162 to R164) -/

/-- The record pump leaves every byte of the device status section (R163): a close that it begins does not show there. -/
theorem pumpRecord_deviceStatus (s : State) : s.pumpRecord.deviceStatus = s.deviceStatus := by
  unfold State.pumpRecord
  split
  · next page _ _ _ open_ _ =>
    split
    · rfl
    · split
      · rfl
      · simp only [beginClose_eq, State.deviceStatus, request_run, request_unit, request_walker, request_journal, request_staging,
          State.closing, open_, Option.map_some]
  · rfl

theorem pumpRecord_lanes (s : State) : s.pumpRecord.lanes = s.lanes := by
  unfold State.pumpRecord
  repeat' split
  all_goals rfl

/-- Away from the end of the drain, the settings unit finds all but the open page and the engine as the event's own work left them. -/
theorem settle_unit {m : State} (notEnds : m.drained = false) :
    m.settle.unit = m.pumpRecord.pumpSettings.unit ∧ (∀ k, m.settle.lane k = m.pumpRecord.pumpSettings.lane k) ∧
    m.settle.dma.busy .settings = m.pumpRecord.pumpSettings.dma.busy .settings ∧
    (∀ w r, m.pumpRecord.pumpSettings.asks w r → m.settle.asks w r) := by
  have drain : m.pumpRecord.pumpDrain = m.pumpRecord := pumpDrain_idle (.inl (by rw [(QuietFrame.pumpRecord m).drained, notEnds]))
  rw [settle_eq, drain]
  exact ⟨grant_unit _, fun k => lane_congr (grant_lanes _) k, grant_busy _ _, fun w r => asks_grant⟩

/-- The rewrite flags after the device status section has been taken, and after a lane's status record has. -/
theorem writeDeviceStatus_flags (s : State) : s.writeDeviceStatus.unit.devRewrite = false ∧
    ∀ k, (s.writeDeviceStatus.lane k).rewrite = (s.lane k).rewrite := ⟨rfl, fun _ => rfl⟩

theorem writeLaneStatus_flags (s : State) (l : Lane) (why : Purpose) :
    (s.writeLaneStatus l why).unit.devRewrite = s.unit.devRewrite ∧
    ∀ k, ((s.writeLaneStatus l why).lane k).rewrite = ((s.lane k).rewrite && decide (k ≠ l)) := by
  refine ⟨rfl, fun k => ?_⟩
  show ((s.modLane l fun u => { u with rewrite := false }).lane k).rewrite = _
  rw [lane_modLane]
  by_cases h : k = l <;> simp [h]

/-- `lowest` names the lane that `rewriteLane` finds. -/
theorem rewriteLane_eq {s : State} {l : Lane} (h : (s.lane l).rewrite = true) (lower : ∀ k < l, (s.lane k).rewrite = false) :
    s.rewriteLane = some l := by
  have around : ∀ l : Lane, allLanes = allLanes.filter (· < l) ++ l :: allLanes.filter (l < ·) := by decide
  refine List.find?_eq_some_iff_append.2 ⟨h, _, _, around l, fun k hk => ?_⟩
  rw [List.mem_filter] at hk
  simp [lower k (by simpa using hk.2)]

theorem rewriteLane_none {s : State} (h : ∀ k, (s.lane k).rewrite = false) : s.rewriteLane = none := by
  simp [State.rewriteLane, h]

theorem pumpSettings_run {s : State} (idle : s.dma.busy .settings = false)
    (runs : s.run.device = .running ∨ s.run.device = .stopping ∨ s.run.device = .stopped) : s.pumpSettings = s.pumpRun := by
  rcases runs with h | h | h <;> simp [State.pumpSettings, idle, h]

theorem pumpSettings_loading {s : State} (idle : s.dma.busy .settings = false) (loading : s.run.device = .loading) :
    s.pumpSettings = s.pumpLoad := by
  simp [State.pumpSettings, idle, loading]

theorem pumpSettings_rest {s : State}
    (h : s.dma.busy .settings = true ∨ s.run.device = .resetIdle ∨ s.run.device = .faulted) : s.pumpSettings = s := by
  unfold State.pumpSettings
  split
  · rfl
  · next idle => rcases h with h | h | h <;> simp [h] at idle ⊢

/-- What follows for the settled state `t` of an event that ends in `m`, when the settings unit's part of the settling is `f` of a state `n`
that has the settings unit, run control and lanes of `m`. -/
structure UnitDone (m n t : State) (f : State → State) : Prop where
  unit : n.unit = m.unit
  run : n.run = m.run
  lanes : n.lanes = m.lanes
  status : n.deviceStatus = m.deviceStatus
  busy : n.dma.busy .settings = m.dma.busy .settings
  unitAfter : t.unit = (f n).unit
  lanesAfter : ∀ k, t.lane k = (f n).lane k
  busyAfter : t.dma.busy .settings = (f n).dma.busy .settings
  asks : ∀ w r, (f n).asks w r → t.asks w r

theorem unitDone {m : State} (notEnds : m.drained = false) {f : State → State} (h : m.pumpRecord.pumpSettings = f m.pumpRecord) :
    UnitDone m m.pumpRecord m.settle f := by
  obtain ⟨unit, lanes, busy, asks⟩ := settle_unit notEnds
  rw [h] at unit lanes busy asks
  exact ⟨pumpRecord_unit m, (QuietFrame.pumpRecord m).run, pumpRecord_lanes m, pumpRecord_deviceStatus m,
    pumpRecord_busy m (by decide), unit, lanes, busy, asks⟩

/-- Every rewrite flag as it was. -/
def FlagsKept (m t : State) : Prop :=
  t.unit.devRewrite = m.unit.devRewrite ∧ ∀ k, (t.lane k).rewrite = (m.lane k).rewrite

theorem UnitDone.kept {m n t : State} {f : State → State} (h : UnitDone m n t f) (unit : (f n).unit.devRewrite = n.unit.devRewrite)
    (lanes : ∀ k, (f n).lane k = n.lane k) : FlagsKept m t := by
  refine ⟨by rw [h.unitAfter, unit, h.unit], fun k => ?_⟩
  rw [h.lanesAfter, lanes, lane_congr h.lanes]

/-- A read asked for by the settings unit leaves every flag. -/
theorem UnitDone.reads {m n t : State} {r : Request} (h : UnitDone m n t fun s => s.request .settings r) :
    t.asks .settings r ∧ FlagsKept m t :=
  ⟨h.asks _ _ (asks_request _ _ _), h.kept (by simp) fun k => lane_congr (request_lanes _ _ _) k⟩

theorem UnitDone.writesDevice {m n t : State} {f : State → State} (h : UnitDone m n t f) (dma : (f n).dma = n.writeDeviceStatus.dma)
    (dev : (f n).unit.devRewrite = false) (lanes : ∀ k, (f n).lane k = n.lane k) :
    t.asks .settings (writeRequest .deviceStatusWrite 0x40 m.deviceStatus) ∧ t.unit.devRewrite = false ∧
      ∀ k, (t.lane k).rewrite = (m.lane k).rewrite := by
  refine ⟨h.asks _ _ ((asks_congr dma).2 ?_), by rw [h.unitAfter, dev], fun k => ?_⟩
  · rw [← h.status]
    exact asks_request _ _ _
  · rw [h.lanesAfter, lanes, lane_congr h.lanes]

theorem UnitDone.writesLane {m n t : State} {f : State → State} (h : UnitDone m n t f) (l : Lane) (why : Purpose)
    (dma : (f n).dma = (n.writeLaneStatus l why).dma) (dev : (f n).unit.devRewrite = n.unit.devRewrite)
    (lanes : ∀ k, (f n).lane k = (n.writeLaneStatus l why).lane k) :
    t.asks .settings (writeRequest why (BitVec.ofNat 32 (0x480 + 128 * l.val)) ((m.lane l).status m.run.clock)) ∧
      t.unit.devRewrite = m.unit.devRewrite ∧ ∀ k, (t.lane k).rewrite = ((m.lane k).rewrite && decide (k ≠ l)) := by
  refine ⟨h.asks _ _ ((asks_congr dma).2 ?_), by rw [h.unitAfter, dev, h.unit], fun k => ?_⟩
  · rw [← lane_congr h.lanes l, ← h.run]
    exact asks_request _ _ _
  · rw [h.lanesAfter, lanes, (writeLaneStatus_flags n l why).2, lane_congr h.lanes]

/-- Settles O50: away from the drain's end the settling is `unitDone`, whose part of the settings unit is found by the device state, the
reload in hand, the load's step and the next rewrite. -/
theorem rewriteOrder : Obligations.RewriteOrder := by
  unfold Obligations.RewriteOrder
  intro m notEnds
  rw [← drained_iff, Bool.not_eq_true] at notEnds
  have unit : m.pumpRecord.unit = m.unit := pumpRecord_unit m
  have run : m.pumpRecord.run = m.run := (QuietFrame.pumpRecord m).run
  have idleAfter (idle : m.dma.busy .settings = false) : m.pumpRecord.dma.busy .settings = false := by
    rw [pumpRecord_busy m (by decide), idle]
  have next (l : Lane) (dev : m.unit.devRewrite = false)
      (lowest : (m.lane l).rewrite = true ∧ ∀ k < l, (m.lane k).rewrite = false) : m.pumpRecord.nextRewrite = some (.lane l) := by
    have found : m.pumpRecord.rewriteLane = some l := by
      refine rewriteLane_eq ?_ fun k hk => ?_ <;> rw [lane_congr (pumpRecord_lanes m)]
      exacts [lowest.1, lowest.2 k hk]
    rw [State.nextRewrite, unit, dev, found]
    rfl
  have nextDevice (dev : m.unit.devRewrite = true) : m.pumpRecord.nextRewrite = some .device := by
    rw [State.nextRewrite, unit, dev]
    rfl
  refine ⟨fun rest => ?_, fun idle runs => ?_, fun idle loading => ?_⟩
  · have done := unitDone notEnds (f := id) (pumpSettings_rest (by rw [pumpRecord_busy m (by decide), run]; exact rest))
    exact ⟨done.kept rfl fun _ => rfl, by rw [done.unitAfter]; exact done.unit, by rw [done.busyAfter]; exact done.busy⟩
  · have pump := pumpSettings_run (idleAfter idle) (by rw [run]; exact runs)
    refine ⟨fun l reload => ?_, fun l a reload => ?_, fun reload dev => ?_, fun l reload dev lowest => ?_, fun reload dev none => ?_⟩
    · refine (unitDone notEnds ?_).reads
      simp only [pump, State.pumpRun, unit, reload, laneRecordOffset]
    · refine (unitDone notEnds (f := fun s => s.writeLaneStatus l (.reloadEcho l)) ?_).writesLane l _ rfl rfl fun _ => rfl
      simp only [pump, State.pumpRun, unit, reload]
    · refine (unitDone notEnds (f := State.writeDeviceStatus) ?_).writesDevice rfl rfl fun _ => rfl
      simp only [pump, State.pumpRun, unit, reload, State.pumpRewrite, nextDevice dev, State.rewriteTarget]
    · refine (unitDone notEnds (f := fun s => s.writeLaneStatus l (.laneStatusWrite l)) ?_).writesLane l _ rfl rfl fun _ => rfl
      simp only [pump, State.pumpRun, unit, reload, State.pumpRewrite, next l dev lowest, State.rewriteTarget]
    · have nothing : m.pumpRecord.nextRewrite = Option.none := by
        rw [State.nextRewrite, unit, dev, rewriteLane_none fun k => by rw [lane_congr (pumpRecord_lanes m), none k]]
        rfl
      have done := unitDone notEnds (f := id) (by simp only [pump, State.pumpRun, unit, reload, State.pumpRewrite, nothing, id])
      exact ⟨done.kept rfl fun _ => rfl, by rw [done.busyAfter]; exact done.busy.trans idle⟩
  · have pump := pumpSettings_loading (idleAfter idle) (by rw [run]; exact loading)
    refine ⟨fun load => ?_, fun l load => ?_, fun left load => ⟨fun dev => ?_, fun l dev lowest => ?_⟩⟩
    · refine (unitDone notEnds ?_).reads
      simp only [pump, State.pumpLoad, unit, load]
    · refine (unitDone notEnds ?_).reads
      simp only [pump, State.pumpLoad, unit, load, laneRecordOffset]
    · have done := unitDone notEnds
        (f := fun s => { s.writeDeviceStatus with unit.load := .status (left.filter fun x => decide (x ≠ .device)) })
        (by simp only [pump, State.pumpLoad, unit, load, State.pumpStatus, nextDevice dev, State.rewriteTarget])
      exact ⟨done.writesDevice rfl rfl fun _ => rfl, by rw [done.unitAfter]⟩
    · have done := unitDone notEnds
        (f := fun s => { s.writeLaneStatus l (.laneStatusWrite l) with
          unit.load := .status (left.filter fun x => decide (x ≠ .lane l)) })
        (by simp only [pump, State.pumpLoad, unit, load, State.pumpStatus, next l dev lowest, State.rewriteTarget])
      exact ⟨done.writesLane l _ rfl rfl fun _ => rfl, by rw [done.unitAfter]⟩

end Sys2Proof.Machine
end

section
/-! PROOFS. What a command can do, said once: `Effect` has a case for each way a command takes effect, with what it found and the state that
its own work leaves. Every statement about all commands is a case analysis over it. -/

namespace Sys2Proof.Machine

/-! ## Orders (chapter 8.3) -/

/-- The command at which an order's owner takes it. -/
def Order.command : Order → Instr
  | .drawerKick l => .drawerKick l
  | .drawerLockout l => .drawerLockout l
  | .drawerRelease l => .drawerRelease l
  | .scannerSet l p enable => .scannerSet l p enable
  | .scanConfirm l p bad => .scanConfirm l p bad
  | .keyImageRead l => .keyImageRead l
  | .laneReload l => .laneReload l
  | .laneState l target => .laneState l target
  | .countersRead l clear => .countersRead l clear
  | .flush => .flush
  | .policyLock => .policyLock
  | .journalMark tag => .journalMark tag

/-- The work of an order's owner. -/
def State.take (s : State) : Order → State
  | .drawerKick l => s.takeKick l
  | .drawerLockout l => s.takeLockout l
  | .drawerRelease l => s.takeRelease l
  | .scannerSet l p enable => s.takeScannerSet l p enable
  | .scanConfirm l p bad => s.takeScanConfirm l p bad
  | .keyImageRead l => s.takeKeyImageRead l
  | .laneReload l => s.takeLaneReload l
  | .laneState l target => s.takeLaneState l target
  | .countersRead l clear => s.takeCountersRead l clear
  | .flush => s.takeFlush
  | .policyLock => s.takePolicyLock
  | .journalMark tag => s.takeJournalMark tag

/-- The command of an order does nothing but let its owner take it, when the walker has handed it on. -/
theorem exec_order (o : Order) (s : State) : exec o.command s = s.taking o fun s => s.take o := by
  cases o <;> rfl

/-! ## Commands -/

/-- In the state `s` the command `c` takes effect, its own work leads to `m`, and `ends` says whether what the end of an event does
follows. -/
inductive Effect (s : State) : Instr → (m : State) → (ends : Bool) → Prop where
  | powerOnReset : Effect s .powerOnReset (s.resetAs .powerOn) false
  | linkReset : Effect s .linkReset (s.resetAs .link) false
  | softReset : Effect s .reset (s.resetAs .soft) false
  | run (device : s.run.device = .resetIdle ∨ s.run.device = .stopped) : Effect s .run s.startRun true
  | halt (device : s.run.device = .running) : Effect s .halt s.stopRun true
  | reheadOrders (taken : s.takesReheadOrders = true) : Effect s .reheadOrders s.reheadWalker true
  | reheadPages (taken : s.takesReheadPages = true) : Effect s .reheadPages s.reheadJournal true
  | notify (v : Word32) (taken : s.takesNotify = true) : Effect s (.notify v) s.notifyWalker.notifyJournal true
  | causeRead (bytes : BitVec 4) : Effect s (.causeRead bytes) (s.readCause bytes) false
  | areaWrite (high : Bool) (v : Word32) (bytes : BitVec 4) : Effect s (.areaWrite high v bytes) (s.writeArea high v bytes) false
  | dmaAbort {g : Grant} (granted : s.dma.granted = some g) : Effect s .dmaAbort s.linkAbort false
  | hostPart {g : Grant} (granted : s.dma.granted = some g) (purpose : g.req.purpose = .hostPartRead) (data : List Byte) :
      Effect s (.hostPartReadComplete data) (s.complete.hostPart data) true
  | laneRecord {g : Grant} (granted : s.dma.granted = some g) {l : Lane} (purpose : g.req.purpose = .laneSettingsRead l)
      (data : List Byte) : Effect s (.laneSettingsReadComplete data) (s.complete.laneRecord l data) true
  | statusWrite {g : Grant} (granted : s.dma.granted = some g) (purpose : completes .statusWriteComplete g.req.purpose) :
      Effect s .statusWriteComplete s.complete.statusWritten true
  | reloadRead {g : Grant} (granted : s.dma.granted = some g) {l : Lane} (purpose : g.req.purpose = .reloadRead l)
      (data : List Byte) : Effect s (.reloadSettingsReadComplete data) (s.complete.reloadRead l data) true
  | reloadEcho {g : Grant} (granted : s.dma.granted = some g) {l : Lane} (purpose : g.req.purpose = .reloadEcho l) :
      Effect s .reloadEchoWriteComplete s.complete.echoWritten true
  | pageLink {g : Grant} (granted : s.dma.granted = some g) (purpose : g.req.purpose = .pageLinkRead) (link : Word32) :
      Effect s (.pageLinkReadComplete link) (s.complete.pageLink link) true
  | pageHeader {g : Grant} (granted : s.dma.granted = some g) {o : Word32} (purpose : g.req.purpose = .pageHeaderRead o) (st : Byte) :
      Effect s (.pageHeaderReadComplete st) (s.complete.pageHeader o st) true
  | recordWrite {g : Grant} (granted : s.dma.granted = some g) (purpose : g.req.purpose = .recordWrite) :
      Effect s .recordWriteComplete s.complete.recordWritten true
  | headerBody {g : Grant} (granted : s.dma.granted = some g) (purpose : g.req.purpose = .headerBodyWrite) :
      Effect s .headerBodyWriteComplete s.complete.bodyWritten true
  | closedMarker {g : Grant} (granted : s.dma.granted = some g) (purpose : g.req.purpose = .closedMarkerWrite) :
      Effect s .closedMarkerWriteComplete s.complete.pageClosed true
  | linger (due : s.journal.linger = some 0) : Effect s .lingerExpiry s.lingerExpired true
  | journalRecheck (due : s.journal.recheck = some 0) : Effect s .journalRecheckExpiry s.journalRecheck true
  | orderLink {g : Grant} (granted : s.dma.granted = some g) (purpose : g.req.purpose = .orderLinkRead) (link : Word32) :
      Effect s (.orderLinkReadComplete link) (s.complete.orderLink link) true
  | slipRead {g : Grant} (granted : s.dma.granted = some g) {o : Word32} (purpose : g.req.purpose = .slipRead o) (data : List Byte) :
      Effect s (.slipReadComplete data) (s.complete.slipRead o data) true
  | taken {g : Grant} (granted : s.dma.granted = some g) (purpose : g.req.purpose = .takenWrite) :
      Effect s .takenWriteComplete s.complete.takenWritten true
  | slipBody {g : Grant} (granted : s.dma.granted = some g) (purpose : g.req.purpose = .slipBodyWrite) :
      Effect s .slipBodyWriteComplete s.complete.slipBodyWritten true
  | slipState {g : Grant} (granted : s.dma.granted = some g) (purpose : g.req.purpose = .slipStateWrite) :
      Effect s .slipStateWriteComplete s.complete.slipFinished true
  | walkerRecheck (due : s.walker.recheck = some 0) : Effect s .walkerRecheckExpiry s.walkerRecheck true
  | order (o : Order) (handed : s.walker.handed = some o) : Effect s o.command (s.take o) true
  | markEntry {tag : Word32} (waits : s.staging.markWaiting = some tag) (place : s.markEnters = true) :
      Effect s .markEntry ({ s with staging.markWaiting := none }.enterMark tag) true
  | idleTimer (l : Lane) (due : (s.lane l).idle = some 0) (active : (s.lane l).laneState = .active) (inRun : s.inRun = true) :
      Effect s (.idleTimerExpiry l) (s.changeLane l .doze .idle false) true
  | keylockValid (l : Lane) (pos : Position) :
      Effect s (.keylockValidReading l pos) (s.modLane l fun u => u.setContacts (contactsOf pos)) false
  | keylockInvalid (l : Lane) (contacts : BitVec 4) :
      Effect s (.keylockInvalidReading l contacts) (s.modLane l fun u => u.setContacts contacts) false
  | keylockSettle (l : Lane) {pos : Position} (due : (s.lane l).keylock.settle = some 0)
      (candidate : (s.lane l).keylock.candidate = some pos) : Effect s (.keylockSettleExpiry l) (s.adopt l pos false) true
  | keylockIndeterminate (l : Lane) (due : (s.lane l).keylock.indet = some 0) :
      Effect s (.keylockIndeterminateExpiry l) (s.keylockIndeterminate l) true
  | pass (l : Lane) (raw : BitVec 128) (scanning : (s.lane l).kb.mode = .scanning) (due : (s.lane l).kb.passTimer = some 0) :
      Effect s (.pass l raw) (s.runPass l raw) true
  | captureEnd (l : Lane) (due : (s.lane l).kb.capture = some 0) :
      Effect s (.baselineCaptureEnd l) ((s.modLane l LaneUnit.dropCapture).offer l ((s.lane l).imageRecord .baseline)) true
  | typematic (l : Lane) {y : Typematic} (running : (s.lane l).kb.typematic = some y) (due : y.left = 0) :
      Effect s (.typematicExpiry l) (s.repeatKey l y.key) true
  | examination (l : Lane) (active : Bool) (anyKey : (s.lane l).kb.mode = .anyKey) (due : (s.lane l).kb.passTimer = some 0) :
      Effect s (.anyKeyExamination l active) (s.modLane l fun u => u.examine active) false
  | detection (l : Lane) (detected : (s.lane l).kb.detected = true) : Effect s (.anyKeyDetection l) (s.detectKey l) true
  | character (l : Lane) (p : Port) (ch : RxChar) (hears : ((s.lane l).port p).hears = true) :
      Effect s (.characterReceived l p ch) (s.receive l p ch) true
  | gapAssembling (l : Lane) (p : Port) (due : ((s.lane l).port p).gap = some 0) (frame : ((s.lane l).port p).frame = .assembling) :
      Effect s (.gapTimerExpiry l p) (s.fragment l p) true
  | gapDiscarding (l : Lane) (p : Port) (due : ((s.lane l).port p).gap = some 0) (frame : ((s.lane l).port p).frame = .discarding) :
      Effect s (.gapTimerExpiry l p) (s.modPort l p ScanPort.toWaiting) false
  | gapWaiting (l : Lane) (p : Port) (due : ((s.lane l).port p).gap = some 0) (frame : ((s.lane l).port p).frame = .waiting) :
      Effect s (.gapTimerExpiry l p) (s.modPort l p fun q => { q with gap := none }) false
  | toneStep (l : Lane) (p : Port) {y : Tone} (running : ((s.lane l).port p).tone = some y) (due : y.left = 0) :
      Effect s (.toneStepExpiry l p) (s.modPort l p ScanPort.toneStep) false
  | lineHigh (l : Lane) (p : Port) : Effect s (.receiveLineReturnedHigh l p) (s.modPort l p fun q => { q with lineLow := false }) false
  | sensorChange (l : Lane) (isOpen : Bool) :
      Effect s (.drawerSensorChange l isOpen) (s.modDrawer l fun d => d.rawChange (s.lane l).settings.drawer isOpen) false
  | sensorSettle (l : Lane) (due : (s.lane l).drawer.settle = some 0) :
      Effect s (.drawerSensorSettleExpiry l) (s.settleSensor l) true
  | pulseEnd (l : Lane) (due : (s.lane l).drawer.pulse = some 0) :
      Effect s (.kickPulseEnd l) (s.modDrawer l fun d => { d with kickOut := false, pulse := none }) false
  | confirm (l : Lane) (due : (s.lane l).drawer.confirm = some 0) (kicking : (s.lane l).drawer.cond = .kicking) :
      Effect s (.confirmExpiry l) (s.jam l) true
  | alertMark (l : Lane) (due : (s.lane l).drawer.alert = some 0) (stage : (s.lane l).drawer.stage = .alertPending) :
      Effect s (.ajarAlertMark l) (s.alertMark l) true
  | faultMark (l : Lane) (due : (s.lane l).drawer.faultMark = some 0) (stage : (s.lane l).drawer.stage = .faultPending) :
      Effect s (.ajarFaultMark l) (s.drawerEvent l (fun d => { d with ajarFault := true, stage := .none, faultMark := none }) .ajarFault
        (word (s.lane l).drawer.faultTicks)) true
  | presence (l : Lane) (due : (s.lane l).drawer.presence = some 0) :
      Effect s (.presenceTimerExpiry l) (s.modDrawer l Drawer.startMeasure) false
  | measureEnd (l : Lane) (followed : Bool) (due : (s.lane l).drawer.measuring = some 0) :
      Effect s (.presenceMeasurementEnd l followed)
        ((s.modDrawer l fun d => d.endMeasure (s.lane l).settings.drawer).testResult l followed) true

/-- The command `c` leads from `s` to `t`: it has changed nothing, or it has taken effect. -/
def Leads (s : State) (c : Instr) (t : State) : Prop :=
  t = s ∨ ∃ m ends, Effect s c m ends ∧ t = if ends then m.settle else m

theorem Leads.settle {s m t : State} {c : Instr} (e : Effect s c m true) (h : (.next m.settle : Outcome) = .next t) : Leads s c t :=
  .inr ⟨m, true, e, (Host.Outcome.next.inj h).symm⟩

theorem Leads.now {s m t : State} {c : Instr} (e : Effect s c m false) (h : (.next m : Outcome) = .next t) : Leads s c t :=
  .inr ⟨m, false, e, (Host.Outcome.next.inj h).symm⟩

theorem Leads.stay {s t : State} {c : Instr} (h : (.next s : Outcome) = .next t) : Leads s c t :=
  .inl (Host.Outcome.next.inj h).symm

theorem isDue_iff (t : Timer) : isDue t = true ↔ t = some 0 := beq_iff_eq

theorem purpose_eq_some {s : State} {p : Purpose} (h : s.purpose = some p) :
    ∃ g, s.dma.granted = some g ∧ g.req.purpose = p := by
  simpa [State.purpose] using h

theorem Leads.order {s t : State} (o : Order) (h : exec o.command s = .next t) : Leads s o.command t := by
  rw [exec_order, State.taking] at h
  split at h
  · next handed => exact .settle (.order o handed) h
  · exact .stay h

/-- What a command that answers a next state can do. -/
theorem leads_of_exec {c : Instr} {s t : State} (h : exec c s = .next t) : Leads s c t := by
  cases c with
  | powerOnReset => exact .now .powerOnReset h
  | linkReset => exact .now .linkReset h
  | reset => exact .now .softReset h
  | run =>
    dsimp only [exec, execRun] at h
    split at h
    · next device => exact .settle (.run (.inl device)) h
    · next device => exact .settle (.run (.inr device)) h
    all_goals exact .stay h
  | halt =>
    dsimp only [exec, execHalt] at h
    split at h
    · next device => exact .settle (.halt device) h
    all_goals exact .stay h
  | reheadOrders =>
    dsimp only [exec, execReheadOrders] at h
    split at h
    · next taken => exact .settle (.reheadOrders taken) h
    · exact .stay h
  | reheadPages =>
    dsimp only [exec, execReheadPages] at h
    split at h
    · next taken => exact .settle (.reheadPages taken) h
    · exact .stay h
  | notify v =>
    dsimp only [exec, execNotify] at h
    split at h
    · next taken => exact .settle (.notify v taken) h
    · exact .stay h
  | causeRead bytes => exact .now (.causeRead bytes) h
  | areaWrite high v bytes => exact .now (.areaWrite high v bytes) h
  | registerWriteOther => exact .stay h
  | dmaAbort =>
    dsimp only [exec, execDmaAbort] at h
    split at h
    · next granted => exact .now (.dmaAbort granted) h
    · exact .stay h
  | hostPartReadComplete data =>
    dsimp only [exec, execHostPartReadComplete] at h
    split at h
    · next purpose =>
      obtain ⟨g, granted, purpose⟩ := purpose_eq_some purpose
      exact .settle (.hostPart granted purpose data) h
    · exact .stay h
  | laneSettingsReadComplete data =>
    dsimp only [exec, execLaneSettingsReadComplete] at h
    split at h
    · next purpose =>
      obtain ⟨g, granted, purpose⟩ := purpose_eq_some purpose
      exact .settle (.laneRecord granted purpose data) h
    · exact .stay h
  | statusWriteComplete =>
    dsimp only [exec, execStatusWriteComplete] at h
    split at h
    · next purpose =>
      obtain ⟨g, granted, purpose⟩ := purpose_eq_some purpose
      exact .settle (.statusWrite granted (by rw [purpose]; trivial)) h
    · next purpose =>
      obtain ⟨g, granted, purpose⟩ := purpose_eq_some purpose
      exact .settle (.statusWrite granted (by rw [purpose]; trivial)) h
    · exact .stay h
  | reloadSettingsReadComplete data =>
    dsimp only [exec, execReloadSettingsReadComplete] at h
    split at h
    · next purpose =>
      obtain ⟨g, granted, purpose⟩ := purpose_eq_some purpose
      exact .settle (.reloadRead granted purpose data) h
    · exact .stay h
  | reloadEchoWriteComplete =>
    dsimp only [exec, execReloadEchoWriteComplete] at h
    split at h
    · next purpose =>
      obtain ⟨g, granted, purpose⟩ := purpose_eq_some purpose
      exact .settle (.reloadEcho granted purpose) h
    · exact .stay h
  | pageLinkReadComplete link =>
    dsimp only [exec, execPageLinkReadComplete] at h
    split at h
    · next purpose =>
      obtain ⟨g, granted, purpose⟩ := purpose_eq_some purpose
      exact .settle (.pageLink granted purpose link) h
    · exact .stay h
  | pageHeaderReadComplete st =>
    dsimp only [exec, execPageHeaderReadComplete] at h
    split at h
    · next purpose =>
      obtain ⟨g, granted, purpose⟩ := purpose_eq_some purpose
      exact .settle (.pageHeader granted purpose st) h
    · exact .stay h
  | recordWriteComplete =>
    dsimp only [exec, execRecordWriteComplete] at h
    split at h
    · next purpose =>
      obtain ⟨g, granted, purpose⟩ := purpose_eq_some purpose
      exact .settle (.recordWrite granted purpose) h
    · exact .stay h
  | headerBodyWriteComplete =>
    dsimp only [exec, execHeaderBodyWriteComplete] at h
    split at h
    · next purpose =>
      obtain ⟨g, granted, purpose⟩ := purpose_eq_some purpose
      exact .settle (.headerBody granted purpose) h
    · exact .stay h
  | closedMarkerWriteComplete =>
    dsimp only [exec, execClosedMarkerWriteComplete] at h
    split at h
    · next purpose =>
      obtain ⟨g, granted, purpose⟩ := purpose_eq_some purpose
      exact .settle (.closedMarker granted purpose) h
    · exact .stay h
  | lingerExpiry =>
    dsimp only [exec, execLingerExpiry] at h
    split at h
    · next due => exact .settle (.linger ((isDue_iff _).1 due)) h
    · exact .stay h
  | journalRecheckExpiry =>
    dsimp only [exec, execJournalRecheckExpiry] at h
    split at h
    · next due => exact .settle (.journalRecheck ((isDue_iff _).1 due)) h
    · exact .stay h
  | orderLinkReadComplete link =>
    dsimp only [exec, execOrderLinkReadComplete] at h
    split at h
    · next purpose =>
      obtain ⟨g, granted, purpose⟩ := purpose_eq_some purpose
      exact .settle (.orderLink granted purpose link) h
    · exact .stay h
  | slipReadComplete data =>
    dsimp only [exec, execSlipReadComplete] at h
    split at h
    · next purpose =>
      obtain ⟨g, granted, purpose⟩ := purpose_eq_some purpose
      exact .settle (.slipRead granted purpose data) h
    · exact .stay h
  | takenWriteComplete =>
    dsimp only [exec, execTakenWriteComplete] at h
    split at h
    · next purpose =>
      obtain ⟨g, granted, purpose⟩ := purpose_eq_some purpose
      exact .settle (.taken granted purpose) h
    · exact .stay h
  | slipBodyWriteComplete =>
    dsimp only [exec, execSlipBodyWriteComplete] at h
    split at h
    · next purpose =>
      obtain ⟨g, granted, purpose⟩ := purpose_eq_some purpose
      exact .settle (.slipBody granted purpose) h
    · exact .stay h
  | slipStateWriteComplete =>
    dsimp only [exec, execSlipStateWriteComplete] at h
    split at h
    · next purpose =>
      obtain ⟨g, granted, purpose⟩ := purpose_eq_some purpose
      exact .settle (.slipState granted purpose) h
    · exact .stay h
  | walkerRecheckExpiry =>
    dsimp only [exec, execWalkerRecheckExpiry] at h
    split at h
    · next due => exact .settle (.walkerRecheck ((isDue_iff _).1 due)) h
    · exact .stay h
  | drawerKick l => exact .order (.drawerKick l) h
  | drawerLockout l => exact .order (.drawerLockout l) h
  | drawerRelease l => exact .order (.drawerRelease l) h
  | scannerSet l p enable => exact .order (.scannerSet l p enable) h
  | scanConfirm l p bad => exact .order (.scanConfirm l p bad) h
  | keyImageRead l => exact .order (.keyImageRead l) h
  | laneReload l => exact .order (.laneReload l) h
  | laneState l target => exact .order (.laneState l target) h
  | countersRead l clear => exact .order (.countersRead l clear) h
  | flush => exact .order .flush h
  | policyLock => exact .order .policyLock h
  | journalMark tag => exact .order (.journalMark tag) h
  | markEntry =>
    dsimp only [exec, execMarkEntry] at h
    split at h
    · next waits =>
      split at h
      · next place => exact .settle (.markEntry waits place) h
      · exact .stay h
    · exact .stay h
  | idleTimerExpiry l =>
    dsimp only [exec, execIdleTimerExpiry] at h
    split at h
    · next found =>
      obtain ⟨due, active, inRun⟩ := found
      exact .settle (.idleTimer l ((isDue_iff _).1 due) active inRun) h
    · exact .stay h
  | keylockValidReading l pos => exact .now (.keylockValid l pos) h
  | keylockInvalidReading l contacts => exact .now (.keylockInvalid l contacts) h
  | keylockSettleExpiry l =>
    dsimp only [exec, execKeylockSettleExpiry] at h
    split at h
    · next due =>
      split at h
      · next candidate => exact .settle (.keylockSettle l ((isDue_iff _).1 due) candidate) h
      · exact .stay h
    · exact .stay h
  | keylockIndeterminateExpiry l =>
    dsimp only [exec, execKeylockIndeterminateExpiry] at h
    split at h
    · next due => exact .settle (.keylockIndeterminate l ((isDue_iff _).1 due)) h
    · exact .stay h
  | pass l raw =>
    dsimp only [exec, execPass] at h
    split at h
    · next found => exact .settle (.pass l raw found.1 ((isDue_iff _).1 found.2)) h
    · exact .stay h
  | baselineCaptureEnd l =>
    dsimp only [exec, execBaselineCaptureEnd] at h
    split at h
    · next due => exact .settle (.captureEnd l due) h
    · exact .stay h
  | typematicExpiry l =>
    dsimp only [exec, execTypematicExpiry] at h
    split at h
    · next running =>
      split at h
      · next due => exact .settle (.typematic l running due) h
      · exact .stay h
    · exact .stay h
  | anyKeyExamination l active =>
    dsimp only [exec, execAnyKeyExamination] at h
    split at h
    · next found => exact .now (.examination l active found.1 ((isDue_iff _).1 found.2)) h
    · exact .stay h
  | anyKeyDetection l =>
    dsimp only [exec, execAnyKeyDetection] at h
    split at h
    · next detected => exact .settle (.detection l detected) h
    · exact .stay h
  | characterReceived l p ch =>
    dsimp only [exec, execCharacterReceived] at h
    split at h
    · next hears => exact .settle (.character l p ch hears) h
    · exact .stay h
  | gapTimerExpiry l p =>
    dsimp only [exec, execGapTimerExpiry] at h
    split at h
    · next due =>
      have due := (isDue_iff _).1 due
      split at h
      · next frame => exact .settle (.gapAssembling l p due frame) h
      · next frame => exact .now (.gapDiscarding l p due frame) h
      · next frame => exact .now (.gapWaiting l p due frame) h
    · exact .stay h
  | toneStepExpiry l p =>
    dsimp only [exec, execToneStepExpiry] at h
    split at h
    · next running =>
      split at h
      · next due => exact .now (.toneStep l p running due) h
      · exact .stay h
    · exact .stay h
  | receiveLineReturnedHigh l p => exact .now (.lineHigh l p) h
  | drawerSensorChange l isOpen => exact .now (.sensorChange l isOpen) h
  | drawerSensorSettleExpiry l =>
    dsimp only [exec, execDrawerSensorSettleExpiry] at h
    split at h
    · next due => exact .settle (.sensorSettle l ((isDue_iff _).1 due)) h
    · exact .stay h
  | kickPulseEnd l =>
    dsimp only [exec, execKickPulseEnd] at h
    split at h
    · next due => exact .now (.pulseEnd l ((isDue_iff _).1 due)) h
    · exact .stay h
  | confirmExpiry l =>
    dsimp only [exec, execConfirmExpiry] at h
    split at h
    · next found => exact .settle (.confirm l ((isDue_iff _).1 found.1) found.2) h
    · exact .stay h
  | ajarAlertMark l =>
    dsimp only [exec, execAjarAlertMark] at h
    split at h
    · next found => exact .settle (.alertMark l ((isDue_iff _).1 found.1) found.2) h
    · exact .stay h
  | ajarFaultMark l =>
    dsimp only [exec, execAjarFaultMark] at h
    split at h
    · next found => exact .settle (.faultMark l ((isDue_iff _).1 found.1) found.2) h
    · exact .stay h
  | presenceTimerExpiry l =>
    dsimp only [exec, execPresenceTimerExpiry] at h
    split at h
    · next due => exact .now (.presence l ((isDue_iff _).1 due)) h
    · exact .stay h
  | presenceMeasurementEnd l followed =>
    dsimp only [exec, execPresenceMeasurementEnd] at h
    split at h
    · next due => exact .settle (.measureEnd l followed ((isDue_iff _).1 due)) h
    · exact .stay h

end Sys2Proof.Machine
end

section
/-! PROOFS. Nothing is left to do at the end of an event (R126, R133, R155, R164, R167): the events that ask for nothing more move nothing
that a block's next work depends on, a reset and an abort leave no block with work, and after every other event `settle` has done it. -/

namespace Sys2Proof.Machine

/-! ## Events that move nothing a block's work depends on -/

theorem State.settled.modLane {s : State} (h : s.settled) (l : Lane) {f : LaneUnit → LaneUnit}
    (kept : (f (s.lane l)).rewrite = (s.lane l).rewrite ∧ (f (s.lane l)).losses = (s.lane l).losses) : (s.modLane l f).settled := by
  refine h.congr rfl rfl (fun m => ?_) rfl rfl rfl rfl rfl
  rw [lane_modLane]
  split
  · next e => subst e; exact kept
  · exact ⟨rfl, rfl⟩

theorem takeReading_work (u : LaneUnit) : u.takeReading.rewrite = u.rewrite ∧ u.takeReading.losses = u.losses := by
  unfold LaneUnit.takeReading
  split <;> exact ⟨rfl, rfl⟩

theorem setContacts_work (u : LaneUnit) (contacts : BitVec 4) :
    (u.setContacts contacts).rewrite = u.rewrite ∧ (u.setContacts contacts).losses = u.losses := by
  unfold LaneUnit.setContacts
  split
  · exact ⟨rfl, rfl⟩
  · dsimp only
    split
    · exact takeReading_work _
    · exact ⟨rfl, rfl⟩

theorem modPort_work (u : LaneUnit) (p : Port) (f : ScanPort → ScanPort) :
    (u.modPort p f).rewrite = u.rewrite ∧ (u.modPort p f).losses = u.losses := by
  cases p <;> exact ⟨rfl, rfl⟩

theorem State.settled.modPort {s : State} (h : s.settled) (l : Lane) (p : Port) (f : ScanPort → ScanPort) : (s.modPort l p f).settled :=
  h.modLane l (modPort_work _ p f)

theorem State.settled.modDrawer {s : State} (h : s.settled) (l : Lane) (f : Drawer → Drawer) : (s.modDrawer l f).settled :=
  h.modLane l ⟨rfl, rfl⟩

theorem writeArea_cases (s : State) (high : Bool) (v : Word32) (bytes : BitVec 4) :
    ∃ lo hi, s.writeArea high v bytes = { s with run := { s.run with areaLow := lo, areaHigh := hi } } := by
  unfold State.writeArea
  split
  · split <;> exact ⟨_, _, rfl⟩
  · split <;> exact ⟨_, _, rfl⟩
  all_goals exact ⟨s.run.areaLow, s.run.areaHigh, rfl⟩

theorem State.settled.writeArea {s : State} (h : s.settled) (high : Bool) (v : Word32) (bytes : BitVec 4) :
    (s.writeArea high v bytes).settled := by
  obtain ⟨lo, hi, e⟩ := writeArea_cases s high v bytes
  rw [e]
  exact h.congr rfl rfl (fun _ => ⟨rfl, rfl⟩) rfl rfl rfl rfl rfl

theorem lane_map (s : State) (f : LaneUnit → LaneUnit) (m : Lane) : ({ s with lanes := s.lanes.map f } : State).lane m = f (s.lane m) := by
  simp [State.lane]

theorem lane_tick (s : State) (m : Lane) : s.tick.lane m = (s.lane m).tick s.inRun := by
  simp [State.lane, State.tick]

theorem State.settled.tick {s : State} (h : s.settled) : s.tick.settled :=
  h.congr rfl rfl (fun m => by rw [lane_tick]; exact ⟨rfl, rfl⟩) rfl rfl rfl rfl rfl

/-! ## A reset and an abort -/

/-- The journal writer is idle or halted, in a device state in which the settings unit makes no request, and no waiting request may be granted. -/
theorem settled_of_idle {s : State} (device : s.run.device = .resetIdle ∨ s.run.device = .faulted)
    (journal : s.journal.state = .idle ∨ s.journal.state = .halted)
    (waits : s.run.device ≠ .faulted → ∀ w, s.dma.waitingOf w = none) : s.settled := by
  have notFilling {p : OpenPage} (f : s.pageFree p) : False := by
    have filling := f.1
    rcases journal with e | e <;> simp [e] at filling
  have notDrained : s.drained = false := not_drained (by rcases device with e | e <;> simp [e])
  apply settled_of_not_workLeft
  rintro (⟨free, _⟩ | ⟨ends, _⟩ | ⟨ends, _⟩ | ⟨_, work⟩ | ⟨_, dev, asked⟩)
  · exact notFilling free
  · simp [notDrained] at ends
  · simp [notDrained] at ends
  · rcases device with e | e <;> simp [State.unitWork, e] at work
  · simp [waits dev] at asked

theorem resetAs_settled (s : State) (kind : ResetKind) : (s.resetAs kind).settled := by
  refine settled_of_idle (.inl ?_) (.inl rfl) (fun _ w => by cases w <;> rfl)
  cases kind <;> rfl

theorem linkAbort_settled (s : State) : s.linkAbort.settled := by
  obtain ⟨run, -, journal, -⟩ := linkAbort_spec s
  refine settled_of_idle (.inr (by rw [run])) (.inr (by rw [journal])) fun h => absurd (by rw [run]) h

/-! ## Every command -/

theorem Effect.settled {s m : State} {c : Instr} {ends : Bool} (e : Effect s c m ends) (h : s.settled) (now : ends = false) :
    m.settled := by
  cases e with
  | powerOnReset => exact resetAs_settled s _
  | linkReset => exact resetAs_settled s _
  | softReset => exact resetAs_settled s _
  | causeRead bytes => exact h.congr rfl rfl (fun _ => ⟨rfl, rfl⟩) rfl rfl rfl rfl rfl
  | areaWrite high v bytes => exact h.writeArea high v bytes
  | dmaAbort => exact linkAbort_settled s
  | keylockValid l pos => exact h.modLane l (setContacts_work _ _)
  | keylockInvalid l contacts => exact h.modLane l (setContacts_work _ _)
  | examination l active => exact h.modLane l ⟨rfl, rfl⟩
  | gapDiscarding l p => exact h.modPort l p _
  | gapWaiting l p => exact h.modPort l p _
  | toneStep l p => exact h.modPort l p _
  | lineHigh l p => exact h.modPort l p _
  | sensorChange l => exact h.modDrawer l _
  | pulseEnd l => exact h.modDrawer l _
  | presence l => exact h.modDrawer l _
  | _ => cases now

theorem exec_settled {c : Instr} {s t : State} (h : s.settled) (e : exec c s = .next t) : t.settled := by
  obtain rfl | ⟨m, ends, effect, rfl⟩ := leads_of_exec e
  · exact h
  · cases ends with
    | false => exact effect.settled h rfl
    | true => exact settle_settled m

/-- Settles O58: a command that ends with `settle` leaves nothing, and the others touch no block's work. -/
theorem settledInvariant : Obligations.SettledInvariant := by
  unfold Obligations.SettledInvariant
  refine ⟨fun c s t h e => exec_settled h e, fun s t h e => ?_⟩
  unfold step at e
  split at e
  · obtain rfl := Host.Outcome.next.inj e
    exact h.tick
  · refine exec_settled ?_ e
    exact h.congr rfl rfl (fun _ => ⟨rfl, rfl⟩) rfl rfl rfl rfl rfl

end Sys2Proof.Machine
end

section
/-! PROOFS. A keyboard pass (R20 to R33): what each stage makes of the image and the blocked list, with the records it offers. `KeyWork` holds
the keys that a pass works on; its functions below say what one key of a stage does to them, and `KeyPass` ties the model's stages to
them. -/

namespace Sys2Proof.Machine

/-! ## Lists without repetition -/

theorem length_filter_ne {α : Type} [DecidableEq α] {xs : List α} {a : α} (once : xs.Nodup) (mem : a ∈ xs) :
    (xs.filter (· != a)).length = xs.length - 1 := by
  rw [← once.erase_eq_filter, List.length_erase_of_mem mem]

/-! ## Keys, one at a time -/

/-- The keys that count as down. -/
def KeyWork.keys (w : KeyWork) : List Key := w.image ++ w.blocked.map Prod.fst

/-- The keys of a lane before a pass. -/
def LaneUnit.keyWork (u : LaneUnit) : KeyWork := { image := u.kb.image, blocked := u.kb.blocked, records := [] }

/-- The ghost test fails (R24). -/
def KeyWork.failsGhost (w : KeyWork) (c : LaneSettings) (k : Key) : Bool :=
  !c.isolated && w.keys.any fun a =>
    keyRow a == keyRow k && keyCol a != keyCol k &&
      w.keys.any fun b =>
        keyCol b == keyCol k && keyRow b != keyRow k &&
          w.keys.any fun x => keyRow x == keyRow b && keyCol x == keyCol a

/-- The rollover test passes (R25). -/
def KeyWork.hasSlot (w : KeyWork) (c : LaneSettings) : Bool := decide (w.image.length < c.rollover)

/-- The key is blocked (R28). -/
def KeyWork.block (w : KeyWork) (k : Key) (why : BlockReason) : KeyWork :=
  { w with blocked := w.blocked ++ [(k, why)], records := w.records ++ [.keyBlocked k why w.image.length] }

/-- The key goes down (R26). -/
def KeyWork.goDown (w : KeyWork) (c : LaneSettings) (k : Key) : KeyWork :=
  if w.failsGhost c k then w.block k .ghost else if w.hasSlot c then w.accept k else w.block k .rollover

/-- The key leaves the blocked list. -/
def KeyWork.unblock (w : KeyWork) (k : Key) : KeyWork := { w with blocked := w.blocked.filter (·.1 != k) }

/-- The key goes up (R31, R32). -/
def KeyWork.goUp (w : KeyWork) (k : Key) : KeyWork :=
  if w.image.contains k then
    { w with image := w.image.filter (· != k), records := w.records ++ [.keyUp k (w.image.filter (· != k)).length] }
  else w.unblock k

/-- A blocked key is examined again (R30). -/
def KeyWork.examine (w : KeyWork) (c : LaneSettings) (k : Key) : KeyWork :=
  if w.failsGhost c k || !w.hasSlot c then w else (w.unblock k).accept k

/-- `w` holds the keys of the lane unit `u`. -/
def KeyWork.isOf (w : KeyWork) (u : LaneUnit) : Prop := w.image = u.kb.image ∧ w.blocked = u.kb.blocked

theorem KeyWork.isOf.failsGhost {w : KeyWork} {u : LaneUnit} (h : w.isOf u) (k : Key) : w.failsGhost u.settings k = u.failsGhost k := by
  simp only [KeyWork.failsGhost, LaneUnit.failsGhost, Keyboard.ghostSuspect, Keyboard.downKeys, KeyWork.keys, h.1, h.2]

theorem KeyWork.isOf.hasSlot {w : KeyWork} {u : LaneUnit} (h : w.isOf u) : w.hasSlot u.settings = u.hasSlot := by
  simp only [KeyWork.hasSlot, LaneUnit.hasSlot, h.1]

/-! ## What the stages do to the lane -/

/-- From `s` to `t` a stage of a pass has offered the records `rs` of lane `l`, which enter where keys are reported, and has changed only the
keys, the typematic timer and what an accepted key sets. -/
structure KeyPass (l : Lane) (s t : State) (rs : List RecordBody) : Prop where
  unit : t.lane l = { s.lane l with
    kb := { (s.lane l).kb with
      image := (t.lane l).kb.image, blocked := (t.lane l).kb.blocked, typematic := (t.lane l).kb.typematic }
    acceptor := (t.lane l).acceptor, idle := (t.lane l).idle, counters := (t.lane l).counters, noted := (t.lane l).noted
    rewrite := (t.lane l).rewrite, seq := (t.lane l).seq, losses := (t.lane l).losses }
  offers : (s.lane l).reportsKeys = true → Offers l s t rs
  silent : (s.lane l).reportsKeys = false →
    t.staging = s.staging ∧ (t.lane l).acceptor = (s.lane l).acceptor ∧ (t.lane l).counters = (s.lane l).counters

theorem KeyPass.refl (l : Lane) (s : State) : KeyPass l s s [] := ⟨rfl, fun _ => Offers.refl l s, fun _ => ⟨rfl, rfl, rfl⟩⟩

theorem KeyPass.settings {l : Lane} {s t : State} {rs : List RecordBody} (h : KeyPass l s t rs) :
    (t.lane l).settings = (s.lane l).settings := by rw [h.unit]

theorem KeyPass.reports {l : Lane} {s t : State} {rs : List RecordBody} (h : KeyPass l s t rs) :
    (t.lane l).reportsKeys = (s.lane l).reportsKeys := by
  rw [h.unit]; rfl

theorem KeyPass.trans {l : Lane} {s t u : State} {as bs : List RecordBody} (a : KeyPass l s t as) (b : KeyPass l t u bs) :
    KeyPass l s u (as ++ bs) where
  unit := by
    have e := b.unit
    rw [a.unit] at e
    exact e
  offers r := (a.offers r).trans (b.offers (a.reports.trans r))
  silent r := by
    obtain ⟨s1, a1, c1⟩ := a.silent r
    obtain ⟨s2, a2, c2⟩ := b.silent (a.reports.trans r)
    exact ⟨s2.trans s1, a2.trans a1, c2.trans c1⟩

/-- A change of the keys and the typematic timer alone. -/
theorem KeyPass.modKb {l : Lane} {s : State} {f : Keyboard → Keyboard}
    (kept : f (s.lane l).kb = { (s.lane l).kb with
      image := (f (s.lane l).kb).image, blocked := (f (s.lane l).kb).blocked, typematic := (f (s.lane l).kb).typematic }) :
    KeyPass l s (s.modKb l f) [] where
  unit := by simp only [State.modKb, lane_modLane_same]; rw [← kept]
  offers _ := Offers.modLane rfl rfl
  silent _ := ⟨rfl, by simp only [State.modKb, lane_modLane_same], by simp only [State.modKb, lane_modLane_same]⟩

theorem KeyPass.offer (l : Lane) {s : State} (b : RecordBody) (reports : (s.lane l).reportsKeys = true) : KeyPass l s (s.offer l b) [b] where
  unit := by rw [offer_lane]
  offers _ := Offers.offer l s b
  silent r := by simp [reports] at r

/-- An offer made only where keys are reported. -/
theorem KeyPass.report (l : Lane) (s : State) (b : RecordBody) :
    KeyPass l s (if (s.lane l).reportsKeys then s.offer l b else s) [b] := by
  cases r : (s.lane l).reportsKeys with
  | true => exact KeyPass.offer l b r
  | false => exact ⟨rfl, fun c => by simp [r] at c, fun _ => ⟨rfl, rfl, rfl⟩⟩

/-- What an accepted key sets where keys are reported (R27). -/
theorem KeyPass.accepted (l : Lane) {s : State} (reports : (s.lane l).reportsKeys = true) :
    KeyPass l s (((s.modAcceptor l fun a => { a with keySince := true }).count l .keysDown).restartIdle l) [] where
  unit := by
    simp only [State.restartIdle, lane_modLane_same]
    rw [count_lane]
    simp only [State.modAcceptor, lane_modLane_same]
    split <;> rfl
  offers _ := by
    refine (Offers.modLane (m := l) (f := fun u => { u with acceptor := { u.acceptor with keySince := true } }) rfl rfl).trans
      ((Offers.count l l _ _).trans (Offers.modLane ?_ ?_)) <;> split <;> rfl
  silent r := by simp [reports] at r

theorem kb_report (l : Lane) (s : State) (b : RecordBody) (r : Bool) : ((if r then s.offer l b else s).lane l).kb = (s.lane l).kb := by
  cases r <;> simp

/-- One key of a stage has taken the lane from the keys of `w` to those of `w'`, offering the records that `w'` has more than `w`. -/
def KeyStage (l : Lane) (s t : State) (w w' : KeyWork) : Prop :=
  w'.isOf (t.lane l) ∧ ∃ rs, w'.records = w.records ++ rs ∧ KeyPass l s t rs

theorem KeyStage.trans {l : Lane} {s t u : State} {w x y : KeyWork} (a : KeyStage l s t w x) (b : KeyStage l t u x y) :
    KeyStage l s u w y := by
  obtain ⟨-, as, ha, pa⟩ := a
  obtain ⟨k, bs, hb, pb⟩ := b
  exact ⟨k, as ++ bs, by rw [hb, ha, List.append_assoc], pa.trans pb⟩

theorem keyStage_accept {l : Lane} {s : State} {w : KeyWork} (h : w.isOf (s.lane l)) (k : Key) :
    KeyStage l s (s.acceptKey l k) w (w.accept k) ∧
      ((s.acceptKey l k).lane l).kb.typematic = (s.lane l).typematicFor k := by
  have moved := KeyPass.modKb (l := l) (s := s) (f := fun kb =>
    { kb with image := kb.image ++ [k], typematic := (s.lane l).typematicFor k }) rfl
  have reports := moved.reports
  simp only [State.acceptKey]
  generalize e : s.modKb l _ = x at *
  have kb : (x.lane l).kb = { (s.lane l).kb with image := (s.lane l).kb.image ++ [k], typematic := (s.lane l).typematicFor k } := by
    rw [← e]; simp [State.modKb]
  cases r : (s.lane l).reportsKeys with
  | true =>
    rw [r] at reports
    have offered := KeyPass.offer l (s := x) (.keyDown k ((s.lane l).kb.image.length + 1)) reports
    simp only [if_true]
    refine ⟨⟨⟨?_, ?_⟩, _, ?_, (moved.trans offered).trans (KeyPass.accepted l (offered.reports.trans reports))⟩, ?_⟩
    · simp [kb, KeyWork.accept, h.1]
    · simp [kb, KeyWork.accept, h.2]
    · simp [KeyWork.accept, h.1]
    · simp [kb]
  | false =>
    refine ⟨⟨⟨?_, ?_⟩, [.keyDown k ((s.lane l).kb.image.length + 1)], ?_, ?_⟩, ?_⟩
    · simp [kb, KeyWork.accept, h.1]
    · simp [kb, KeyWork.accept, h.2]
    · simp [KeyWork.accept, h.1]
    · simp only [Bool.false_eq_true, if_false]
      exact ⟨moved.unit, fun c => by simp [r] at c, moved.silent⟩
    · simp [kb]

theorem keyStage_block {l : Lane} {s : State} {w : KeyWork} (h : w.isOf (s.lane l)) (k : Key) (why : BlockReason) :
    KeyStage l s (s.blockKey l k why) w (w.block k why) ∧ ((s.blockKey l k why).lane l).kb.typematic = (s.lane l).kb.typematic := by
  have moved := KeyPass.modKb (l := l) (s := s) (f := fun kb => { kb with blocked := kb.blocked ++ [(k, why)] }) rfl
  simp only [State.blockKey]
  rw [← moved.reports]
  generalize e : s.modKb l _ = x at *
  have kb : (x.lane l).kb = { (s.lane l).kb with blocked := (s.lane l).kb.blocked ++ [(k, why)] } := by
    rw [← e]; simp [State.modKb]
  refine ⟨⟨⟨?_, ?_⟩, _, ?_, moved.trans (KeyPass.report l x (.keyBlocked k why (s.lane l).kb.image.length))⟩, ?_⟩
  · simp [kb_report, kb, KeyWork.block, h.1]
  · simp [kb_report, kb, KeyWork.block, h.2]
  · simp [KeyWork.block, h.1]
  · simp [kb_report, kb]

theorem keyStage_goDown {l : Lane} {s : State} {w : KeyWork} (h : w.isOf (s.lane l)) (k : Key) :
    KeyStage l s (s.keyGoesDown l k) w (w.goDown (s.lane l).settings k) := by
  simp only [State.keyGoesDown, KeyWork.goDown, h.failsGhost, h.hasSlot]
  split
  · exact (keyStage_block h k .ghost).1
  · split
    · exact (keyStage_accept h k).1
    · exact (keyStage_block h k .rollover).1

theorem keyStage_goUp {l : Lane} {s : State} {w : KeyWork} (h : w.isOf (s.lane l)) (k : Key) :
    KeyStage l s (s.keyGoesUp l k) w (w.goUp k) ∧
      ((s.lane l).kb.image.contains k = true →
        ((s.keyGoesUp l k).lane l).kb.typematic = (s.lane l).kb.typematic.filter (·.key != k)) := by
  simp only [State.keyGoesUp, KeyWork.goUp, h.1]
  split
  · have moved := KeyPass.modKb (l := l) (s := s) (f := fun kb =>
      { kb with image := kb.image.filter (· != k), typematic := kb.typematic.filter (·.key != k) }) rfl
    rw [← moved.reports]
    generalize e : s.modKb l _ = x at *
    have kb : (x.lane l).kb = { (s.lane l).kb with
        image := (s.lane l).kb.image.filter (· != k), typematic := (s.lane l).kb.typematic.filter (·.key != k) } := by
      rw [← e]; simp [State.modKb]
    refine ⟨⟨⟨?_, ?_⟩, _, rfl, moved.trans (KeyPass.report l x _)⟩, fun _ => ?_⟩
    · simp [kb_report, kb]
    · simp [kb_report, kb, h.2]
    · simp [kb_report, kb]
  · next absent =>
    refine ⟨⟨⟨?_, ?_⟩, [], (List.append_nil _).symm, KeyPass.modKb rfl⟩, fun c => absurd c absent⟩
    · simp [State.modKb, KeyWork.unblock, h.1]
    · simp [State.modKb, KeyWork.unblock, h.2]

theorem keyStage_examine {l : Lane} {s : State} {w : KeyWork} (h : w.isOf (s.lane l)) (k : Key) :
    KeyStage l s (s.reexamine l k) w (w.examine (s.lane l).settings k) := by
  simp only [State.reexamine, KeyWork.examine, h.failsGhost, h.hasSlot]
  split
  · exact ⟨h, [], (List.append_nil _).symm, KeyPass.refl l s⟩
  · have moved := KeyPass.modKb (l := l) (s := s) (f := fun kb => { kb with blocked := kb.blocked.filter (·.1 != k) }) rfl
    have taken : (w.unblock k).isOf ((s.modKb l fun kb => { kb with blocked := kb.blocked.filter (·.1 != k) }).lane l) := by
      simp [State.modKb, KeyWork.isOf, KeyWork.unblock, h.1, h.2]
    exact KeyStage.trans ⟨taken, [], (List.append_nil _).symm, moved⟩ (keyStage_accept taken k).1

/-- A stage handles its keys one after the other. -/
theorem KeyStage.foldl {l : Lane} {c : LaneSettings} (f : State → Key → State) (g : KeyWork → Key → KeyWork)
    (one : ∀ (s : State) (w : KeyWork) (k : Key), (s.lane l).settings = c → w.isOf (s.lane l) → KeyStage l s (f s k) w (g w k)) :
    ∀ (ks : List Key) (s : State) (w : KeyWork), (s.lane l).settings = c → w.isOf (s.lane l) →
      KeyStage l s (ks.foldl f s) w (ks.foldl g w)
  | [], s, w, _, h => ⟨h, [], (List.append_nil _).symm, KeyPass.refl l s⟩
  | k :: ks, s, w, hc, h => by
    have first := one s w k hc h
    obtain ⟨h', rs, -, moved⟩ := id first
    exact first.trans (KeyStage.foldl f g one ks _ _ (moved.settings.trans hc) h')

/-! ## The whole pass -/

/-- The keys after the keys that go up. -/
def LaneUnit.workUp (u : LaneUnit) (raw : BitVec 128) : KeyWork := (u.goingUp raw).foldl KeyWork.goUp u.keyWork

/-- The keys after the blocked list has been examined again. -/
def LaneUnit.workAgain (u : LaneUnit) (raw : BitVec 128) : KeyWork :=
  ((u.workUp raw).blocked.map Prod.fst).foldl (fun w k => w.examine u.settings k) (u.workUp raw)

/-- The keys after the keys that go down. -/
def LaneUnit.workDown (u : LaneUnit) (raw : BitVec 128) : KeyWork :=
  (u.goingDown raw).foldl (fun w k => w.goDown u.settings k) (u.workAgain raw)

/-- The change counts of a pass (R23). -/
def State.counted (s : State) (l : Lane) (raw : BitVec 128) : State :=
  s.modKb l fun kb => { kb with counts := Vector.ofFn ((s.lane l).countAfter raw) }

/-- A pass but for its last assignment: the change counts, and then the three stages. -/
def State.passStages (s : State) (l : Lane) (raw : BitVec 128) : State :=
  let u := s.lane l
  let s := s.counted l raw
  let s := (u.goingUp raw).foldl (fun s k => s.keyGoesUp l k) s
  let s := ((s.lane l).kb.blocked.map Prod.fst).foldl (fun s k => s.reexamine l k) s
  (u.goingDown raw).foldl (fun s k => s.keyGoesDown l k) s

theorem runPass_eq (s : State) (l : Lane) (raw : BitVec 128) :
    s.runPass l raw = (s.passStages l raw).modKb l fun kb =>
      { kb with passTimer := some (s.lane l).settings.pass, capture := kb.capture.map (· - 1) } := rfl

theorem keyStage_passStages (s : State) (l : Lane) (raw : BitVec 128) :
    KeyStage l (s.counted l raw) (s.passStages l raw) (s.lane l).keyWork ((s.lane l).workDown raw) := by
  have settings : ((s.counted l raw).lane l).settings = (s.lane l).settings := by simp [State.counted, State.modKb]
  have start : (s.lane l).keyWork.isOf ((s.counted l raw).lane l) := by
    simp [State.counted, State.modKb, KeyWork.isOf, LaneUnit.keyWork]
  have up := KeyStage.foldl (l := l) (c := (s.lane l).settings) (fun s k => s.keyGoesUp l k) KeyWork.goUp
    (fun s w k _ h => (keyStage_goUp h k).1) ((s.lane l).goingUp raw) _ _ settings start
  have settings1 := (up.2.elim fun _ h => h.2.settings).trans settings
  have again := KeyStage.foldl (l := l) (c := (s.lane l).settings) (fun s k => s.reexamine l k)
    (fun w k => w.examine (s.lane l).settings k) (fun s w k e h => e ▸ keyStage_examine h k)
    (((s.lane l).workUp raw).blocked.map Prod.fst) _ _ settings1 up.1
  have settings2 := (again.2.elim fun _ h => h.2.settings).trans settings1
  have down := KeyStage.foldl (l := l) (c := (s.lane l).settings) (fun s k => s.keyGoesDown l k)
    (fun w k => w.goDown (s.lane l).settings k) (fun s w k e h => e ▸ keyStage_goDown h k) ((s.lane l).goingDown raw) _ _
    settings2 again.1
  have blocked : ((s.lane l).workUp raw).blocked =
      ((((s.lane l).goingUp raw).foldl (fun s k => s.keyGoesUp l k) (s.counted l raw)).lane l).kb.blocked := up.1.2
  rw [blocked] at again down
  simp only [State.passStages, LaneUnit.workDown, LaneUnit.workAgain, blocked]
  exact (up.trans again).trans down

end Sys2Proof.Machine
end

section
/-! PROOFS. A keyboard pass as a whole (R20 to R33): no key stands twice, which keys are down after it, and the order of its records. -/

namespace Sys2Proof.Machine

/-! ## No key stands twice -/

/-- No key stands twice. -/
def KeyWork.once (w : KeyWork) : Prop := w.keys.Nodup

theorem KeyWork.once_iff (w : KeyWork) :
    w.once ↔ w.image.Nodup ∧ (w.blocked.map Prod.fst).Nodup ∧ ∀ k ∈ w.image, k ∉ w.blocked.map Prod.fst := by
  rw [KeyWork.once, KeyWork.keys, List.nodup_append]
  exact ⟨fun ⟨a, b, c⟩ => ⟨a, b, fun k h h' => c k h k h' rfl⟩, fun ⟨a, b, c⟩ => ⟨a, b, fun k h j h' e => c k h (e ▸ h')⟩⟩

theorem KeyWork.mem_keys {w : KeyWork} {k : Key} : k ∈ w.keys ↔ k ∈ w.image ∨ k ∈ w.blocked.map Prod.fst := List.mem_append

theorem KeyWork.unblock_blocked (w : KeyWork) (k : Key) :
    (w.unblock k).blocked.map Prod.fst = (w.blocked.map Prod.fst).filter (· != k) := by
  rw [KeyWork.unblock, List.filter_map]; rfl

theorem KeyWork.once.unblock {w : KeyWork} (h : w.once) (k : Key) : (w.unblock k).once := by
  obtain ⟨image, blocked, apart⟩ := (once_iff w).1 h
  refine (once_iff _).2 ⟨image, ?_, fun j hj hb => ?_⟩
  · rw [unblock_blocked]; exact blocked.filter _
  · rw [unblock_blocked] at hb; exact apart j hj (List.mem_filter.1 hb).1

theorem KeyWork.mem_unblock {w : KeyWork} {j k : Key} : j ∈ (w.unblock k).keys ↔ j ∈ w.image ∨ j ∈ w.blocked.map Prod.fst ∧ j ≠ k := by
  rw [mem_keys, unblock_blocked, List.mem_filter, bne_iff_ne]; rfl

theorem KeyWork.mem_accept {w : KeyWork} {j k : Key} : j ∈ (w.accept k).keys ↔ j ∈ w.keys ∨ j = k := by
  simp only [mem_keys, KeyWork.accept, List.mem_append, List.mem_singleton]
  tauto

theorem KeyWork.once.accept {w : KeyWork} (h : w.once) {k : Key} (new : k ∉ w.keys) : (w.accept k).once := by
  obtain ⟨image, blocked, apart⟩ := (once_iff w).1 h
  rw [mem_keys, not_or] at new
  refine (once_iff _).2 ⟨?_, blocked, fun j hj => ?_⟩
  · exact List.nodup_append.2 ⟨image, List.nodup_singleton k, fun a ha b hb e => new.1 (List.mem_singleton.1 hb ▸ e ▸ ha)⟩
  · rcases List.mem_append.1 hj with hj | hj
    · exact apart j hj
    · exact List.mem_singleton.1 hj ▸ new.2

theorem KeyWork.mem_block {w : KeyWork} {j k : Key} {why : BlockReason} : j ∈ (w.block k why).keys ↔ j ∈ w.keys ∨ j = k := by
  simp only [mem_keys, KeyWork.block, List.map_append, List.map_cons, List.map_nil, List.mem_append, List.mem_singleton]
  tauto

theorem KeyWork.once.block {w : KeyWork} (h : w.once) {k : Key} (new : k ∉ w.keys) (why : BlockReason) : (w.block k why).once := by
  have e : (w.block k why).keys = w.keys ++ [k] := by simp [KeyWork.keys, KeyWork.block]
  rw [KeyWork.once, e]
  exact List.nodup_append.2 ⟨h, List.nodup_singleton k, fun a ha b hb e => new (List.mem_singleton.1 hb ▸ e ▸ ha)⟩

theorem KeyWork.goDown_cases (w : KeyWork) (c : LaneSettings) (k : Key) :
    w.goDown c k = w.accept k ∨ ∃ why, w.goDown c k = w.block k why := by
  unfold KeyWork.goDown
  split
  · exact .inr ⟨_, rfl⟩
  · split
    · exact .inl rfl
    · exact .inr ⟨_, rfl⟩

theorem KeyWork.mem_goDown {w : KeyWork} {c : LaneSettings} {j k : Key} : j ∈ (w.goDown c k).keys ↔ j ∈ w.keys ∨ j = k := by
  obtain e | ⟨why, e⟩ := w.goDown_cases c k <;> rw [e]
  · exact mem_accept
  · exact mem_block

theorem KeyWork.once.goDown {w : KeyWork} (h : w.once) (c : LaneSettings) {k : Key} (new : k ∉ w.keys) : (w.goDown c k).once := by
  obtain e | ⟨why, e⟩ := w.goDown_cases c k <;> rw [e]
  · exact h.accept new
  · exact h.block new why

theorem KeyWork.mem_goUp {w : KeyWork} (h : w.once) {j k : Key} : j ∈ (w.goUp k).keys ↔ j ∈ w.keys ∧ j ≠ k := by
  obtain ⟨-, -, apart⟩ := (once_iff w).1 h
  unfold KeyWork.goUp
  split
  · next here =>
    rw [mem_keys, mem_keys, List.mem_filter, bne_iff_ne]
    constructor
    · rintro (⟨a, b⟩ | a)
      · exact ⟨.inl a, b⟩
      · exact ⟨.inr a, fun e => apart k (List.contains_iff_mem.1 here) (e ▸ a)⟩
    · rintro ⟨a | a, b⟩
      · exact .inl ⟨a, b⟩
      · exact .inr a
  · next absent =>
    rw [mem_unblock, mem_keys]
    constructor
    · rintro (a | ⟨a, b⟩)
      · exact ⟨.inl a, fun e => absent (List.contains_iff_mem.2 (e ▸ a))⟩
      · exact ⟨.inr a, b⟩
    · rintro ⟨a | a, b⟩
      · exact .inl a
      · exact .inr ⟨a, b⟩

theorem KeyWork.once.goUp {w : KeyWork} (h : w.once) (k : Key) : (w.goUp k).once := by
  unfold KeyWork.goUp
  split
  · obtain ⟨image, blocked, apart⟩ := (once_iff w).1 h
    exact (once_iff _).2 ⟨image.filter _, blocked, fun j hj => apart j (List.mem_filter.1 hj).1⟩
  · exact h.unblock k

/-- A key of the blocked list that is examined again stays among the keys, and no other entry of the list is touched. -/
theorem KeyWork.examine_spec {w : KeyWork} (h : w.once) (c : LaneSettings) {k : Key} (blocked : k ∈ w.blocked.map Prod.fst) :
    (w.examine c k).once ∧ (∀ j, j ∈ (w.examine c k).keys ↔ j ∈ w.keys) ∧
      ∀ j, j ≠ k → j ∈ w.blocked.map Prod.fst → j ∈ (w.examine c k).blocked.map Prod.fst := by
  obtain ⟨-, -, apart⟩ := (once_iff w).1 h
  unfold KeyWork.examine
  split
  · exact ⟨h, fun _ => Iff.rfl, fun _ _ => id⟩
  · have gone : k ∉ (w.unblock k).keys := by
      rw [mem_unblock]
      rintro (a | a)
      · exact apart k a blocked
      · exact a.2 rfl
    refine ⟨(h.unblock k).accept gone, fun j => ?_, fun j ne hj => ?_⟩
    · rw [mem_accept, mem_unblock, mem_keys]
      by_cases e : j = k
      · simp [e, blocked]
      · simp [e]
    · show j ∈ (w.unblock k).blocked.map Prod.fst
      rw [unblock_blocked]
      exact List.mem_filter.2 ⟨hj, bne_iff_ne.2 ne⟩

/-! ## The stages -/

theorem KeyWork.goUp_foldl : ∀ (ks : List Key) {w : KeyWork}, w.once →
    (ks.foldl KeyWork.goUp w).once ∧ ∀ j, j ∈ (ks.foldl KeyWork.goUp w).keys ↔ j ∈ w.keys ∧ j ∉ ks
  | [], w, h => ⟨h, fun j => by simp⟩
  | k :: ks, w, h => by
    obtain ⟨once, mem⟩ := KeyWork.goUp_foldl ks (h.goUp k)
    refine ⟨once, fun j => ?_⟩
    rw [List.foldl_cons, mem, KeyWork.mem_goUp h, List.mem_cons]
    tauto

theorem KeyWork.examine_foldl (c : LaneSettings) : ∀ (ks : List Key) {w : KeyWork}, w.once → ks.Nodup →
    (∀ k ∈ ks, k ∈ w.blocked.map Prod.fst) →
    (ks.foldl (fun w k => w.examine c k) w).once ∧ ∀ j, j ∈ (ks.foldl (fun w k => w.examine c k) w).keys ↔ j ∈ w.keys
  | [], w, h, _, _ => ⟨h, fun _ => Iff.rfl⟩
  | k :: ks, w, h, distinct, blocked => by
    obtain ⟨new, distinct⟩ := List.nodup_cons.1 distinct
    obtain ⟨once, mem, others⟩ := KeyWork.examine_spec h c (blocked k (List.mem_cons_self ..))
    obtain ⟨once', mem'⟩ := KeyWork.examine_foldl c ks once distinct fun j hj =>
      others j (fun e => new (e ▸ hj)) (blocked j (List.mem_cons_of_mem _ hj))
    exact ⟨once', fun j => (mem' j).trans (mem j)⟩

theorem KeyWork.goDown_foldl (c : LaneSettings) : ∀ (ks : List Key) {w : KeyWork}, w.once → ks.Nodup → (∀ k ∈ ks, k ∉ w.keys) →
    (ks.foldl (fun w k => w.goDown c k) w).once ∧ ∀ j, j ∈ (ks.foldl (fun w k => w.goDown c k) w).keys ↔ j ∈ w.keys ∨ j ∈ ks
  | [], w, h, _, _ => ⟨h, fun j => by simp⟩
  | k :: ks, w, h, distinct, fresh => by
    obtain ⟨new, distinct⟩ := List.nodup_cons.1 distinct
    obtain ⟨once, mem⟩ := KeyWork.goDown_foldl c ks (h.goDown c (fresh k (List.mem_cons_self ..))) distinct fun j hj => by
      rw [KeyWork.mem_goDown, not_or]
      exact ⟨fresh j (List.mem_cons_of_mem _ hj), fun e => new (e ▸ hj)⟩
    refine ⟨once, fun j => ?_⟩
    rw [List.foldl_cons, mem, KeyWork.mem_goDown, List.mem_cons, or_assoc]

theorem isDown_iff (kb : Keyboard) (k : Key) : kb.isDown k = true ↔ k ∈ kb.downKeys := List.contains_iff_mem

theorem mem_goingUp (u : LaneUnit) (raw : BitVec 128) (k : Key) : k ∈ u.goingUp raw ↔ u.flips raw k = true ∧ k ∈ u.kb.downKeys := by
  rw [LaneUnit.goingUp, List.mem_filter, Bool.and_eq_true, isDown_iff]
  exact ⟨fun h => h.2, fun h => ⟨List.mem_finRange k, h⟩⟩

theorem mem_goingDown (u : LaneUnit) (raw : BitVec 128) (k : Key) : k ∈ u.goingDown raw ↔ u.flips raw k = true ∧ k ∉ u.kb.downKeys := by
  rw [LaneUnit.goingDown, List.mem_filter, Bool.and_eq_true, Bool.not_eq_true', ← Bool.not_eq_true, isDown_iff]
  exact ⟨fun h => h.2, fun h => ⟨List.mem_finRange k, h⟩⟩

theorem workUp_spec {u : LaneUnit} (once : u.keysOnce) (raw : BitVec 128) :
    (u.workUp raw).once ∧ ∀ k, k ∈ (u.workUp raw).keys ↔ k ∈ u.kb.downKeys ∧ k ∉ u.goingUp raw :=
  KeyWork.goUp_foldl (u.goingUp raw) (w := u.keyWork) once

theorem workAgain_spec {u : LaneUnit} (once : u.keysOnce) (raw : BitVec 128) :
    (u.workAgain raw).once ∧ ∀ k, k ∈ (u.workAgain raw).keys ↔ k ∈ u.kb.downKeys ∧ k ∉ u.goingUp raw := by
  obtain ⟨up, mem⟩ := workUp_spec once raw
  obtain ⟨again, mem'⟩ := KeyWork.examine_foldl u.settings _ up ((KeyWork.once_iff _).1 up).2.1 fun _ => id
  exact ⟨again, fun k => (mem' k).trans (mem k)⟩

/-- After a pass no key stands twice, and a key is down just when it was down and does not go up or goes down (R22, R23). -/
theorem workDown_spec {u : LaneUnit} (once : u.keysOnce) (raw : BitVec 128) :
    (u.workDown raw).once ∧ ∀ k, k ∈ (u.workDown raw).keys ↔ k ∈ u.kb.downKeys ∧ k ∉ u.goingUp raw ∨ k ∈ u.goingDown raw := by
  obtain ⟨again, mem⟩ := workAgain_spec once raw
  obtain ⟨down, mem'⟩ := KeyWork.goDown_foldl u.settings (u.goingDown raw) again
    ((List.nodup_finRange 128).filter _) fun k hk => by
      rw [mem k]
      exact fun h => ((mem_goingDown u raw k).1 hk).2 h.1
  exact ⟨down, fun k => by rw [LaneUnit.workDown, mem', mem]⟩

/-! ## The lane after a pass -/

/-- What a pass leaves in its lane, in terms of the keys it has worked on. -/
theorem runPass_spec (s : State) (l : Lane) (raw : BitVec 128) :
    ((s.runPass l raw).lane l).kb.image = ((s.lane l).workDown raw).image ∧
    ((s.runPass l raw).lane l).kb.blocked = ((s.lane l).workDown raw).blocked ∧
    ((s.runPass l raw).lane l).kb.counts = Vector.ofFn ((s.lane l).countAfter raw) ∧
    ((s.runPass l raw).lane l).kb.mode = (s.lane l).kb.mode ∧
    ((s.runPass l raw).lane l).kb.passTimer = some (s.lane l).settings.pass ∧
    ((s.runPass l raw).lane l).kb.capture = (s.lane l).kb.capture.map (· - 1) ∧
    ∃ rs, ((s.lane l).workDown raw).records = rs ∧ KeyPass l (s.counted l raw) (s.passStages l raw) rs := by
  obtain ⟨keys, rs, records, moved⟩ := keyStage_passStages s l raw
  have unit := moved.unit
  have kb : ((s.runPass l raw).lane l).kb = { ((s.passStages l raw).lane l).kb with
      passTimer := some (s.lane l).settings.pass, capture := ((s.passStages l raw).lane l).kb.capture.map (· - 1) } := by
    rw [runPass_eq]; simp [State.modKb]
  have counted : ((s.counted l raw).lane l).kb = { (s.lane l).kb with counts := Vector.ofFn ((s.lane l).countAfter raw) } := by
    simp [State.counted, State.modKb]
  have field {β : Type} (g : Keyboard → β) (other : ∀ kb i b y, g { kb with image := i, blocked := b, typematic := y } = g kb) :
      g ((s.passStages l raw).lane l).kb = g ((s.counted l raw).lane l).kb :=
    (congrArg (fun u => g u.kb) unit).trans (other ..)
  rw [kb]
  refine ⟨keys.1.symm, keys.2.symm, ?_, ?_, rfl, ?_, rs, records, moved⟩
  · rw [field Keyboard.counts fun _ _ _ _ => rfl, counted]
  · rw [field Keyboard.mode fun _ _ _ _ => rfl, counted]
  · rw [field Keyboard.capture fun _ _ _ _ => rfl, counted]

theorem downKeys_runPass (s : State) (l : Lane) (raw : BitVec 128) :
    ((s.runPass l raw).lane l).kb.downKeys = ((s.lane l).workDown raw).keys := by
  obtain ⟨image, blocked, -⟩ := runPass_spec s l raw
  rw [Keyboard.downKeys, KeyWork.keys, image, blocked]

theorem keysOnce_runPass {s : State} {l : Lane} (once : (s.lane l).keysOnce) (raw : BitVec 128) :
    ((s.runPass l raw).lane l).keysOnce := by
  rw [LaneUnit.keysOnce, downKeys_runPass]
  exact (workDown_spec once raw).1

/-! ## The command -/

theorem exec_pass_due {s : State} {l : Lane} (raw : BitVec 128) (scanning : (s.lane l).kb.mode = .scanning)
    (due : (s.lane l).kb.passTimer = some 0) : exec (.pass l raw) s = .next (s.runPass l raw).settle := by
  dsimp only [exec, execPass]
  rw [if_pos ⟨scanning, (isDue_iff _).2 due⟩]

theorem exec_pass_not_due {s : State} {l : Lane} (raw : BitVec 128)
    (other : (s.lane l).kb.mode ≠ .scanning ∨ (s.lane l).kb.passTimer ≠ some 0) : exec (.pass l raw) s = .next s := by
  dsimp only [exec, execPass]
  rw [if_neg]
  rintro ⟨scanning, due⟩
  rcases other with h | h
  · exact h scanning
  · exact h ((isDue_iff _).1 due)

theorem reads_iff (u : LaneUnit) (raw : BitVec 128) (k : Key) :
    (u.settings.usesKey k && u.kb.differs raw k) = true ↔ u.settings.usesKey k = true ∧ raw.getLsbD k.val ≠ u.kb.isDown k := by
  simp [Keyboard.differs]

theorem flips_iff (u : LaneUnit) (raw : BitVec 128) (k : Key) : u.flips raw k = true ↔
    (u.settings.usesKey k = true ∧ raw.getLsbD k.val ≠ u.kb.isDown k) ∧ u.settings.debounce ≤ u.kb.counts[k.val] + 1 := by
  rw [LaneUnit.flips, Bool.and_eq_true, reads_iff, decide_eq_true_iff]

theorem isDown_runPass {s : State} {l : Lane} (once : (s.lane l).keysOnce) (raw : BitVec 128) (k : Key) :
    ((s.runPass l raw).lane l).kb.isDown k =
      if (s.lane l).flips raw k then !(s.lane l).kb.isDown k else (s.lane l).kb.isDown k := by
  rw [Bool.eq_iff_iff, isDown_iff, downKeys_runPass, (workDown_spec once raw).2, mem_goingUp, mem_goingDown, ← isDown_iff]
  cases (s.lane l).flips raw k <;> simp

/-- Settles O39: the pass's keys after it, from `workDown_spec`, and its change counts. -/
theorem pass : Obligations.Pass := by
  unfold Obligations.Pass
  intro s l raw u reads flips
  refine ⟨fun scanning due once => ⟨s.runPass l raw, _, exec_pass_due raw scanning due, settle_frame _,
    (KeyStep.runPass raw scanning).1.toLaneFrame, fun k => ?_, fun k => ?_, ?_⟩, exec_pass_not_due raw⟩
  · have iff : flips k ↔ (s.lane l).flips raw k = true := (flips_iff u raw k).symm
    rw [isDown_runPass once, iff]
    exact ⟨fun h => if_pos h, fun h => if_neg h⟩
  · obtain ⟨-, -, counts, -⟩ := runPass_spec s l raw
    have iff : flips k ↔ (s.lane l).flips raw k = true := (flips_iff u raw k).symm
    have iff' : reads k ↔ (u.settings.usesKey k && u.kb.differs raw k) = true := (reads_iff u raw k).symm
    simp only [counts, Vector.getElem_ofFn, LaneUnit.countAfter]
    refine ⟨fun r f => if_pos ?_, fun h => if_neg fun c => ?_⟩
    · rw [Bool.and_eq_true, Bool.not_eq_true', ← Bool.not_eq_true]
      exact ⟨iff'.1 r, mt iff.2 f⟩
    · rw [Bool.and_eq_true, Bool.not_eq_true', ← Bool.not_eq_true] at c
      rcases h with h | h
      · exact h (iff'.2 c.1)
      · exact c.2 (iff.1 h)
  · obtain ⟨-, -, -, mode, timer, capture, -⟩ := runPass_spec s l raw
    exact ⟨mode.trans scanning, timer, capture⟩

end Sys2Proof.Machine
end

section
/-! PROOFS. A pass that changes one key, and the order in which a pass handles its keys (R24 to R33). -/

namespace Sys2Proof.Machine

/-! ## The tests as the manual words them (R24, R25) -/

theorem mem_keys_iff (w : KeyWork) (r : Fin 8) (c : Fin 16) : w.down r c ↔ ∃ a ∈ w.keys, keyRow a = r ∧ keyCol a = c := by
  have corner (a : Key) : a.val = 16 * r.val + c.val ↔ keyRow a = r ∧ keyCol a = c := by
    simp only [keyRow, keyCol]; omega
  simp only [KeyWork.down, KeyWork.keys, corner]

theorem failsGhost_iff (w : KeyWork) (c : LaneSettings) (k : Key) : w.failsGhost c k = true ↔ c.isolated = false ∧
    ∃ a b x, a ∈ w.keys ∧ b ∈ w.keys ∧ x ∈ w.keys ∧ keyRow a = keyRow k ∧ keyCol a ≠ keyCol k ∧ keyCol b = keyCol k ∧
      keyRow b ≠ keyRow k ∧ keyRow x = keyRow b ∧ keyCol x = keyCol a := by
  simp only [KeyWork.failsGhost, Bool.and_eq_true, Bool.not_eq_true', List.any_eq_true, beq_iff_eq, bne_iff_ne]
  refine and_congr_right fun _ => ⟨?_, ?_⟩
  · rintro ⟨a, ha, ⟨ra, ca⟩, b, hb, ⟨cb, rb⟩, x, hx, rx, cx⟩
    exact ⟨a, b, x, ha, hb, hx, ra, ca, cb, rb, rx, cx⟩
  · rintro ⟨a, b, x, ha, hb, hx, ra, ca, cb, rb, rx, cx⟩
    exact ⟨a, ha, ⟨ra, ca⟩, b, hb, ⟨cb, rb⟩, x, hx, rx, cx⟩

theorem refuses_ghost_iff (w : KeyWork) (c : LaneSettings) (k : Key) : w.refuses c k .ghost ↔ w.failsGhost c k = true := by
  rw [failsGhost_iff]
  simp only [KeyWork.refuses, mem_keys_iff]
  refine and_congr_right fun _ => ⟨?_, ?_⟩
  · rintro ⟨r, r', x, x', hk, hr, hx, ⟨a, ha, ra, ca⟩, ⟨b, hb, rb, cb⟩, ⟨y, hy, ry, cy⟩⟩
    have hr : r'.val ≠ r.val := fun e => hr (Fin.ext e)
    have hx : x'.val ≠ x.val := fun e => hx (Fin.ext e)
    have row : keyRow k = r := by simp only [keyRow]; omega
    have col : keyCol k = x := by simp only [keyCol]; omega
    exact ⟨a, b, y, ha, hb, hy, ra.trans row.symm, by omega, cb.trans col.symm, by omega, ry.trans rb.symm, cy.trans ca.symm⟩
  · rintro ⟨a, b, y, ha, hb, hy, ra, ca, cb, rb, ry, cy⟩
    have row (j : Key) : keyRow j < 8 := by have := j.isLt; simp only [keyRow]; omega
    have col (j : Key) : keyCol j < 16 := by simp only [keyCol]; omega
    refine ⟨⟨keyRow k, row k⟩, ⟨keyRow b, row b⟩, ⟨keyCol k, col k⟩, ⟨keyCol a, col a⟩, ?_, ?_, ?_, ⟨a, ha, ra, rfl⟩, ⟨b, hb, rfl, cb⟩,
      ⟨y, hy, ry, cy⟩⟩
    · simp only [keyRow, keyCol]; omega
    · exact fun e => rb (congrArg Fin.val e)
    · exact fun e => ca (congrArg Fin.val e)

theorem refuses_rollover_iff (w : KeyWork) (c : LaneSettings) (k : Key) :
    w.refuses c k .rollover ↔ w.failsGhost c k = false ∧ w.hasSlot c = false := by
  rw [← Bool.not_eq_true, ← refuses_ghost_iff, KeyWork.hasSlot, decide_eq_false_iff_not, Nat.not_lt]
  rfl

/-! ## One key as the manual words it (R26 to R32) -/

theorem bne_eq_decide {α : Type} [DecidableEq α] (a b : α) : (a != b) = decide (a ≠ b) := by
  by_cases h : a = b <;> simp [h]

theorem up_eq {w v : KeyWork} {k : Key} (once : w.once) (h : w.Up v k) : v = w.goUp k := by
  unfold KeyWork.goUp
  split
  · next here =>
    have mem := List.contains_iff_mem.1 here
    rw [h.1 mem, length_filter_ne ((KeyWork.once_iff w).1 once).1 mem]
    simp only [bne_eq_decide]
  · next absent =>
    rw [h.2 (mt List.contains_iff_mem.2 absent), KeyWork.unblock]
    simp only [bne_eq_decide]

theorem down_eq {w v : KeyWork} {c : LaneSettings} {k : Key} (h : w.Down c v k) : v = w.goDown c k := by
  unfold KeyWork.goDown
  split
  · next fails => exact h.1 .ghost ((refuses_ghost_iff w c k).2 fails)
  · next passes =>
    have passes := Bool.eq_false_iff.2 passes
    split
    · next slot =>
      refine h.2 fun why r => ?_
      cases why with
      | ghost => exact absurd ((refuses_ghost_iff w c k).1 r) (by simp [passes])
      | rollover => exact absurd ((refuses_rollover_iff w c k).1 r).2 (by simp [slot])
    · next full => exact h.1 .rollover ((refuses_rollover_iff w c k).2 ⟨passes, Bool.eq_false_iff.2 full⟩)

theorem again_eq {w v : KeyWork} {c : LaneSettings} {k : Key} (h : w.Again c v k) : v = w.examine c k := by
  unfold KeyWork.examine
  cases fails : w.failsGhost c k with
  | true => exact h.1 ⟨.ghost, (refuses_ghost_iff w c k).2 fails⟩
  | false =>
    cases slot : w.hasSlot c with
    | false => exact h.1 ⟨.rollover, (refuses_rollover_iff w c k).2 ⟨fails, slot⟩⟩
    | true =>
      rw [h.2 fun why r => ?_, KeyWork.unblock]
      · simp only [bne_eq_decide]; rfl
      · cases why with
        | ghost => exact absurd ((refuses_ghost_iff w c k).1 r) (by simp [fails])
        | rollover => exact absurd ((refuses_rollover_iff w c k).1 r).2 (by simp [slot])

/-- Keys handled one after the other, each as `g` handles it. -/
theorem each_eq {one : KeyWork → KeyWork → Key → Prop} (P : KeyWork → Prop) (g : KeyWork → Key → KeyWork)
    (step : ∀ w v k, P w → one w v k → v = g w k ∧ P v) :
    ∀ (ks : List Key) (w v : KeyWork), P w → KeyWork.each one ks w v → v = ks.foldl g w
  | [], _, _, _, h => h
  | k :: ks, w, v, hw, ⟨x, hx, h⟩ => by
    obtain ⟨rfl, hx⟩ := step w x k hw hx
    exact each_eq P g step ks _ v hx h

/-! ## The order of a pass -/

theorem keys_false_eq (u : LaneUnit) (raw : BitVec 128) :
    ((List.finRange 128).filter fun k => (u.settings.usesKey k && raw.getLsbD k.val != u.kb.isDown k &&
      decide (u.settings.debounce ≤ u.kb.counts[k.val] + 1)) && u.kb.isDown k != false) = u.goingUp raw := by
  rw [LaneUnit.goingUp, allKeys]
  congr 1
  funext k
  rw [LaneUnit.flips, Keyboard.differs, Bool.bne_false]

theorem keys_true_eq (u : LaneUnit) (raw : BitVec 128) :
    ((List.finRange 128).filter fun k => (u.settings.usesKey k && raw.getLsbD k.val != u.kb.isDown k &&
      decide (u.settings.debounce ≤ u.kb.counts[k.val] + 1)) && u.kb.isDown k != true) = u.goingDown raw := by
  rw [LaneUnit.goingDown, allKeys]
  congr 1
  funext k
  rw [LaneUnit.flips, Keyboard.differs, Bool.bne_true]

theorem reportsKeys_iff (u : LaneUnit) : u.reportsKeys = true ↔ u.keylock.position ≠ .lock ∧ u.kb.capture = none := by
  simp [LaneUnit.reportsKeys]

theorem reportsKeys_counted (s : State) (l : Lane) (raw : BitVec 128) :
    ((s.counted l raw).lane l).reportsKeys = (s.lane l).reportsKeys := by
  simp [State.counted, State.modKb, LaneUnit.reportsKeys]

/-- A pass offers just the records of its stages, where keys are reported. -/
theorem runPass_offers {s : State} {l : Lane} (raw : BitVec 128) (reports : (s.lane l).reportsKeys = true) :
    Offers l s (s.runPass l raw) ((s.lane l).workDown raw).records := by
  obtain ⟨-, -, -, -, -, -, rs, rfl, moved⟩ := runPass_spec s l raw
  have start : Offers l s (s.counted l raw) [] := by
    rw [State.counted, State.modKb]; exact Offers.modLane rfl rfl
  have stop : Offers l (s.passStages l raw) (s.runPass l raw) [] := by rw [runPass_eq]; exact Offers.modLane rfl rfl
  simpa using (start.trans (moved.offers ((reportsKeys_counted s l raw).trans reports))).trans stop

theorem runPass_silent {s : State} {l : Lane} (raw : BitVec 128) (silent : (s.lane l).reportsKeys = false) :
    (s.runPass l raw).staging = s.staging ∧ ((s.runPass l raw).lane l).acceptor = (s.lane l).acceptor ∧
      ((s.runPass l raw).lane l).counters = (s.lane l).counters := by
  obtain ⟨-, -, -, -, -, -, rs, -, moved⟩ := runPass_spec s l raw
  obtain ⟨staging, acceptor, counters⟩ := moved.silent ((reportsKeys_counted s l raw).trans silent)
  rw [runPass_eq]
  simp only [State.modKb, lane_modLane_same]
  refine ⟨staging, acceptor.trans ?_, counters.trans ?_⟩ <;> simp [State.counted, State.modKb]

/-- Settles O41: each stage of `runPass` is the stage that the manual words. -/
theorem passOrder : Obligations.PassOrder := by
  unfold Obligations.PassOrder
  intro s l raw w1 w2 w3 u flips keys scanning due once up again down
  have e1 : w1 = u.workUp raw := by
    rw [show keys false = u.goingUp raw from keys_false_eq u raw] at up
    refine each_eq KeyWork.once KeyWork.goUp (fun w v k hw h => ?_) _ u.keyWork w1 once up
    have e := up_eq hw h
    exact ⟨e, e ▸ hw.goUp k⟩
  subst e1
  have e2 : w2 = u.workAgain raw :=
    each_eq (fun _ => True) (fun w k => w.examine u.settings k) (fun w v k _ h => ⟨again_eq h, trivial⟩) _ _ _ trivial again
  subst e2
  have e3 : w3 = u.workDown raw := by
    rw [show keys true = u.goingDown raw from keys_true_eq u raw] at down
    exact each_eq (fun _ => True) (fun w k => w.goDown u.settings k) (fun w v k _ h => ⟨down_eq h, trivial⟩) _ _ _ trivial down
  subst e3
  obtain ⟨image, blocked, -⟩ := runPass_spec s l raw
  refine ⟨s.runPass l raw, _, exec_pass_due raw scanning due, settle_frame _, (KeyStep.runPass raw scanning).1.toLaneFrame, image,
    blocked, fun silent => (runPass_silent raw ?_).1, fun unlocked free run loss0 loss1 fill =>
      (runPass_offers raw ((reportsKeys_iff _).2 ⟨unlocked, free⟩)).makes ⟨run, loss0, loss1, fill⟩⟩
  rw [← Bool.not_eq_true, reportsKeys_iff]
  exact fun h => silent.elim (absurd · h.1) (absurd h.2)

end Sys2Proof.Machine
end

section
/-! PROOFS. A pass on which one key alone changes (R24 to R31, R33). -/

namespace Sys2Proof.Machine

theorem filter_eq_singleton {α : Type} [DecidableEq α] {xs : List α} {a : α} {p : α → Bool} (once : xs.Nodup) (mem : a ∈ xs)
    (only : ∀ b, p b = true ↔ b = a) : xs.filter p = [a] := by
  have e : p = (· == a) := funext fun b => by rw [Bool.eq_iff_iff, only b, beq_iff_eq]
  rw [e, List.filter_beq, List.count_eq_one_of_mem once mem]
  rfl

/-- Key `k` alone changes its debounced state on the pass that reads `raw`. -/
def LaneUnit.flipsOnly (u : LaneUnit) (raw : BitVec 128) (k : Key) : Prop := ∀ j, u.flips raw j = true ↔ j = k

theorem flipsOnly_of {u : LaneUnit} {raw : BitVec 128} {k : Key} (uses : u.settings.usesKey k = true)
    (reads : raw.getLsbD k.val ≠ u.kb.isDown k) (due : u.settings.debounce ≤ u.kb.counts[k.val] + 1)
    (others : ∀ j, j ≠ k → raw.getLsbD j.val = u.kb.isDown j) : u.flipsOnly raw k := by
  intro j
  rw [flips_iff]
  refine ⟨fun h => ?_, fun e => e ▸ ⟨⟨uses, reads⟩, due⟩⟩
  by_contra ne
  exact h.1.2 (others j ne)

theorem goingUp_of_down {u : LaneUnit} {raw : BitVec 128} {k : Key} (only : u.flipsOnly raw k) (down : u.kb.isDown k = true) :
    u.goingUp raw = [k] ∧ u.goingDown raw = [] := by
  constructor
  · refine filter_eq_singleton (List.nodup_finRange 128) (List.mem_finRange k) fun j => ?_
    rw [Bool.and_eq_true, only j]
    exact ⟨fun h => h.1, fun e => ⟨e, e ▸ down⟩⟩
  · refine List.filter_eq_nil_iff.2 fun j _ => ?_
    rw [Bool.and_eq_true, only j]
    rintro ⟨rfl, h⟩
    simp [down] at h

theorem goingDown_of_up {u : LaneUnit} {raw : BitVec 128} {k : Key} (only : u.flipsOnly raw k) (up : u.kb.isDown k = false) :
    u.goingUp raw = [] ∧ u.goingDown raw = [k] := by
  constructor
  · refine List.filter_eq_nil_iff.2 fun j _ => ?_
    rw [Bool.and_eq_true, only j]
    rintro ⟨rfl, h⟩
    simp [up] at h
  · refine filter_eq_singleton (List.nodup_finRange 128) (List.mem_finRange k) fun j => ?_
    rw [Bool.and_eq_true, only j]
    exact ⟨fun h => h.1, fun e => ⟨e, by simp [e, up]⟩⟩

theorem counted_lane (s : State) (l : Lane) (raw : BitVec 128) :
    (s.counted l raw).lane l = { s.lane l with kb := { (s.lane l).kb with counts := Vector.ofFn ((s.lane l).countAfter raw) } } := by
  simp [State.counted, State.modKb]

theorem keyWork_isOf_counted (s : State) (l : Lane) (raw : BitVec 128) : (s.lane l).keyWork.isOf ((s.counted l raw).lane l) := by
  rw [counted_lane]
  exact ⟨rfl, rfl⟩

theorem contains_image {u : LaneUnit} {k : Key} (none : u.kb.blocked = []) (down : u.kb.isDown k = true) :
    u.kb.image.contains k = true := by
  rw [isDown_iff, Keyboard.downKeys, none, List.map_nil, List.append_nil] at down
  exact List.contains_iff_mem.2 down

/-- A pass on which one key goes down is that key's going down. -/
theorem passStages_down {s : State} {l : Lane} {raw : BitVec 128} {k : Key} (only : (s.lane l).flipsOnly raw k)
    (up : (s.lane l).kb.isDown k = false) (none : (s.lane l).kb.blocked = []) :
    s.passStages l raw = (s.counted l raw).keyGoesDown l k ∧
      (s.lane l).workDown raw = (s.lane l).keyWork.goDown (s.lane l).settings k := by
  obtain ⟨e1, e2⟩ := goingDown_of_up only up
  have none' : ((s.counted l raw).lane l).kb.blocked = [] := by rw [counted_lane]; exact none
  constructor
  · simp only [State.passStages, e1, e2, List.foldl_nil, List.foldl_cons, none', List.map_nil]
  · have none'' : (s.lane l).keyWork.blocked = [] := none
    simp only [LaneUnit.workDown, LaneUnit.workAgain, LaneUnit.workUp, e1, e2, List.foldl_nil, List.foldl_cons, none'', List.map_nil]

/-- A pass on which one key goes up is that key's going up. -/
theorem passStages_up {s : State} {l : Lane} {raw : BitVec 128} {k : Key} (only : (s.lane l).flipsOnly raw k)
    (down : (s.lane l).kb.isDown k = true) (none : (s.lane l).kb.blocked = []) :
    s.passStages l raw = (s.counted l raw).keyGoesUp l k ∧ (s.lane l).workDown raw = (s.lane l).keyWork.goUp k := by
  obtain ⟨e1, e2⟩ := goingUp_of_down only down
  have here : (s.lane l).keyWork.image.contains k = true := contains_image none down
  have none'' : ((s.lane l).keyWork.goUp k).blocked = [] := by
    rw [KeyWork.goUp, if_pos here]
    exact none
  have none' : (((s.counted l raw).keyGoesUp l k).lane l).kb.blocked = [] :=
    (keyStage_goUp (keyWork_isOf_counted s l raw) k).1.1.2.symm.trans none''
  constructor
  · simp only [State.passStages, e1, e2, List.foldl_nil, List.foldl_cons, none', List.map_nil]
  · simp only [LaneUnit.workDown, LaneUnit.workAgain, LaneUnit.workUp, e1, e2, List.foldl_nil, List.foldl_cons, none'', List.map_nil]

theorem runPass_typematic (s : State) (l : Lane) (raw : BitVec 128) :
    ((s.runPass l raw).lane l).kb.typematic = ((s.passStages l raw).lane l).kb.typematic := by
  rw [runPass_eq]; simp [State.modKb]

/-- What an accepted key sets in its lane where keys are reported (R27). -/
theorem acceptKey_reported {s : State} {l : Lane} (k : Key) (reports : (s.lane l).reportsKeys = true) :
    ((s.acceptKey l k).lane l).acceptor = { (s.lane l).acceptor with keySince := true } ∧
    Counted s (s.acceptKey l k) l .keysDown ∧
    ((s.lane l).laneState = .active → ((s.acceptKey l k).lane l).idle = (s.lane l).settings.idlePeriod) := by
  simp only [State.acceptKey, reports, if_true]
  generalize e : s.modKb l _ = x
  have settings : (x.lane l).settings = (s.lane l).settings := by rw [← e]; simp [State.modKb]
  have acceptor : (x.lane l).acceptor = (s.lane l).acceptor := by rw [← e]; simp [State.modKb]
  have laneState : (x.lane l).laneState = (s.lane l).laneState := by rw [← e]; simp [State.modKb]
  have counters : (x.lane l).counters = (s.lane l).counters := by rw [← e]; simp [State.modKb]
  have kept : KeepsCounter .keysDown l s ((x.offer l (.keyDown k ((s.lane l).kb.image.length + 1))).modAcceptor l fun a =>
      { a with keySince := true }) := by
    refine KeepsCounter.trans (KeepsCounter.of counters) ((KeepsCounter.offer (by decide) l x _).trans (KeepsCounter.modLane rfl))
  refine ⟨?_, ?_, ?_⟩
  · simp only [State.restartIdle, lane_modLane_same]
    rw [count_lane]
    split <;> simp [State.modAcceptor, acceptor]
  · have settings : (((x.offer l (.keyDown k ((s.lane l).kb.image.length + 1))).modAcceptor l fun a =>
        { a with keySince := true }).lane l).settings = (s.lane l).settings := by
      simp [settings]
    have counted := counted_count kept settings
    unfold Counted at counted ⊢
    rw [← counted]
    simp only [State.restartIdle, lane_modLane_same]
    split <;> rfl
  · intro active
    simp only [State.restartIdle, lane_modLane_same, count_lane_laneState, modAcceptor_lane_laneState, offer_lane_laneState]
    rw [if_pos (laneState.trans active)]
    simp [settings]

/-- Settles O40: the pass is the one key's going down or up, by what its ghost and rollover tests say. -/
theorem passOneKey : Obligations.PassOneKey := by
  unfold Obligations.PassOneKey
  intro s l raw k u reports ghost scanning due once none uses reads late others
  have only : u.flipsOnly raw k := flipsOnly_of uses reads late others
  have ghost_iff : u.keyWork.failsGhost u.settings k = true ↔ ghost := by
    have keys : u.keyWork.keys = u.kb.image := by
      show u.kb.image ++ u.kb.blocked.map Prod.fst = u.kb.image
      rw [none, List.map_nil, List.append_nil]
    rw [failsGhost_iff, keys]
  have slot_iff : u.keyWork.hasSlot u.settings = true ↔ u.kb.image.length < u.settings.rollover := decide_eq_true_iff
  obtain ⟨image, blocked, -⟩ := runPass_spec s l raw
  have isOf := keyWork_isOf_counted s l raw
  have settings : ((s.counted l raw).lane l).settings = u.settings := by rw [counted_lane]
  have reports_iff : reports ↔ u.reportsKeys = true := (reportsKeys_iff u).symm
  have silent (h : ¬reports) := runPass_silent raw (Bool.eq_false_iff.2 (mt reports_iff.2 h))
  have makes {b : RecordBody} (records : (u.workDown raw).records = [b]) (r : reports) (roomy : s.roomy l) :
      Produces s (s.runPass l raw) l [b] := by
    have offers := runPass_offers raw (reports_iff.1 r)
    rw [show ((s.lane l).workDown raw).records = [b] from records] at offers
    exact offers.makes (roomy.room.mono (by simp))
  have blocks (why : BlockReason) (up : u.kb.isDown k = false) (work : u.keyWork.goDown u.settings k = u.keyWork.block k why)
      (goes : (s.counted l raw).keyGoesDown l k = (s.counted l raw).blockKey l k why) :
      ((s.runPass l raw).lane l).kb.image = u.kb.image ∧ ((s.runPass l raw).lane l).kb.blocked = [(k, why)] ∧
      ((s.runPass l raw).lane l).kb.typematic = u.kb.typematic ∧
      (reports → s.roomy l → Produces s (s.runPass l raw) l [.keyBlocked k why u.kb.image.length]) ∧
      (¬reports → (s.runPass l raw).staging = s.staging) := by
    obtain ⟨stages, down⟩ := passStages_down only up none
    have down : u.workDown raw = u.keyWork.block k why := down.trans work
    refine ⟨image.trans (congrArg KeyWork.image down), ?_, ?_, makes (congrArg KeyWork.records down), fun h => (silent h).1⟩
    · rw [blocked, down]
      show u.kb.blocked ++ _ = _
      rw [none]; rfl
    · rw [runPass_typematic, stages, goes, (keyStage_block isOf k why).2, counted_lane]
  refine ⟨s.runPass l raw, _, exec_pass_due raw scanning due, settle_frame _, (KeyStep.runPass raw scanning).1.toLaneFrame,
    fun up suspect => ?_, fun up free full => ?_, fun up free slot => ?_, fun down => ?_⟩
  · have fails := ghost_iff.2 suspect
    refine blocks .ghost up (by rw [KeyWork.goDown, if_pos fails]) ?_
    rw [State.keyGoesDown, if_pos (by rw [← isOf.failsGhost, settings]; exact fails)]
  · have passes := mt ghost_iff.1 free
    have noSlot : ¬u.keyWork.hasSlot u.settings = true := by rw [slot_iff]; omega
    refine blocks .rollover up (by rw [KeyWork.goDown, if_neg passes, if_neg noSlot]) ?_
    rw [State.keyGoesDown, if_neg (by rw [← isOf.failsGhost, settings]; exact passes),
      if_neg (by rw [← isOf.hasSlot, settings]; exact noSlot)]
  · have passes := mt ghost_iff.1 free
    have hasSlot := slot_iff.2 slot
    obtain ⟨stages, down⟩ := passStages_down only up none
    have down : u.workDown raw = u.keyWork.accept k := down.trans (by rw [KeyWork.goDown, if_neg passes, if_pos hasSlot])
    have goes : (s.counted l raw).keyGoesDown l k = (s.counted l raw).acceptKey l k := by
      rw [State.keyGoesDown, if_neg (by rw [← isOf.failsGhost, settings]; exact passes),
        if_pos (by rw [← isOf.hasSlot, settings]; exact hasSlot)]
    refine ⟨image.trans (congrArg KeyWork.image down), (blocked.trans (congrArg KeyWork.blocked down)).trans none, ?_, fun r => ?_, silent⟩
    · rw [runPass_typematic, stages, goes, (keyStage_accept isOf k).2, counted_lane]
      simp [LaneUnit.typematicFor, u]
    · obtain ⟨acceptor, counted, idle⟩ := acceptKey_reported (s := s.counted l raw) (l := l) k
        ((reportsKeys_counted s l raw).trans (reports_iff.1 r))
      have after : (s.runPass l raw).lane l = { ((s.counted l raw).acceptKey l k).lane l with kb := ((s.runPass l raw).lane l).kb } := by
        rw [runPass_eq, stages, goes]; simp [State.modKb]
      rw [after]
      refine ⟨?_, ?_, ?_, makes (congrArg KeyWork.records down) r⟩
      · rw [acceptor, counted_lane]
      · unfold Counted at counted ⊢
        rw [after, counted, counted_lane]
      · rw [counted_lane] at idle; exact idle
  · obtain ⟨stages, up⟩ := passStages_up only down none
    have here : u.kb.image.contains k = true := contains_image none down
    have length := length_filter_ne ((KeyWork.once_iff u.keyWork).1 once).1 (List.contains_iff_mem.1 here)
    have up : u.workDown raw = { u.keyWork with
        image := u.kb.image.filter fun j => decide (j ≠ k), records := [.keyUp k (u.kb.image.length - 1)] } := by
      refine up.trans ?_
      rw [KeyWork.goUp, if_pos (show (s.lane l).keyWork.image.contains k = true from here)]
      show ({ u.keyWork with image := u.kb.image.filter _, records := [RecordBody.keyUp k (u.kb.image.filter _).length] } : KeyWork) = _
      rw [show (u.kb.image.filter (· != k)).length = u.kb.image.length - 1 from length]
      simp only [bne_eq_decide]
    refine ⟨image.trans (congrArg KeyWork.image up), (blocked.trans (congrArg KeyWork.blocked up)).trans none, ?_,
      makes (congrArg KeyWork.records up), fun h => (silent h).1⟩
    have here' : ((s.counted l raw).lane l).kb.image.contains k = true := by rw [counted_lane]; exact here
    rw [runPass_typematic, stages, (keyStage_goUp isOf k).2 here', counted_lane]
    simp only [bne_eq_decide]
    rfl

end Sys2Proof.Machine
end

section
/-! PROOFS. What the events of a lane keep of its keys and receivers (R20, R26, R42): no key stands twice, a receiver is ON just where the
lane state and the settings call for it, and no frame stands at one that is OFF. -/

namespace Sys2Proof.Machine

/-! ## Lane units -/

/-- No key stands twice, and the receivers are as R42 calls for. -/
def LaneUnit.fit (u : LaneUnit) : Prop := u.keysOnce ∧ u.receiversOk

/-- A change that keeps the keys that are down, the receivers, what they depend on, and begins no frame at a receiver that is OFF. -/
theorem LaneUnit.fit.congr {u v : LaneUnit} (h : u.fit) (keys : v.kb.downKeys = u.kb.downKeys)
    (calls : ∀ p, v.receiverOn p = u.receiverOn p) (on : ∀ p, (v.port p).on = (u.port p).on)
    (frames : ∀ p, (v.port p).frame ≠ .waiting → (u.port p).frame ≠ .waiting ∨ (u.port p).on = true) : v.fit := by
  refine ⟨?_, fun p => ⟨?_, fun f => ?_⟩⟩
  · rw [LaneUnit.keysOnce, keys]; exact h.1
  · rw [on, calls]; exact (h.2 p).1
  · rw [on]; exact (frames p f).elim (h.2 p).2 id

theorem LaneUnit.fit.booked {u v : LaneUnit} (h : u.fit) (b : Booked u v) : v.fit := by
  rw [b.1]
  exact h

theorem modPort_receiverOn (u : LaneUnit) (p q : Port) (f : ScanPort → ScanPort) : (u.modPort p f).receiverOn q = u.receiverOn q := by
  cases p <;> cases q <;> rfl

theorem modPort_kb (u : LaneUnit) (p : Port) (f : ScanPort → ScanPort) : (u.modPort p f).kb = u.kb := by
  cases p <;> rfl

theorem port_modPort (u : LaneUnit) (p q : Port) (f : ScanPort → ScanPort) :
    (u.modPort p f).port q = if q = p then f (u.port p) else u.port q := by
  cases p <;> cases q <;> rfl

theorem LaneUnit.fit.modPort {u : LaneUnit} (h : u.fit) (p : Port) {f : ScanPort → ScanPort} (on : (f (u.port p)).on = (u.port p).on)
    (frame : (f (u.port p)).frame ≠ .waiting → (u.port p).frame ≠ .waiting ∨ (u.port p).on = true) : (u.modPort p f).fit := by
  refine h.congr (by rw [modPort_kb]) (fun q => modPort_receiverOn u p q f) (fun q => ?_) fun q => ?_
  · rw [port_modPort]; split
    · next e => subst e; exact on
    · rfl
  · rw [port_modPort]; split
    · next e => subst e; exact frame
    · exact .inl

theorem entered_downKeys (mode : ScanMode) (pass : Nat) : (Keyboard.entered mode pass).downKeys = [] := by
  obtain ⟨image, blocked⟩ := entered_empty mode pass
  rw [Keyboard.downKeys, image, blocked]; rfl

theorem keysOnce_of_downKeys_nil {u : LaneUnit} (h : u.kb.downKeys = []) : u.keysOnce := by
  rw [LaneUnit.keysOnce, h]; exact List.nodup_nil

theorem cut_on (q : ScanPort) : q.cut.on = q.on := by
  unfold ScanPort.cut; split <;> rfl

theorem cut_frame (q : ScanPort) (h : q.cut.frame ≠ .waiting) : q.frame ≠ .waiting := by
  unfold ScanPort.cut at h
  split at h
  · next e => simp [e]
  · exact h

theorem LaneUnit.fit.cut {u : LaneUnit} (h : u.fit) : u.cut.fit := by
  refine h.congr rfl (fun p => by cases p <;> rfl) (fun p => ?_) fun p f => .inl ?_
  · cases p <;> exact cut_on _
  · cases p <;> exact cut_frame _ f

/-- A change of lane state leaves each receiver as the new state calls for. -/
theorem changed_receiversOk {u : LaneUnit} (new : LaneState) (capture : Bool) (h : u.receiversOk) : (u.changed new capture).receiversOk := by
  intro p
  have calls : (u.changed new capture).receiverOn p = (u.entering new).receiverOn p := by
    simp only [LaneUnit.changed, LaneUnit.startCapture, LaneUnit.followScan]
    split
    · cases p <;> rfl
    · split <;> cases p <;> rfl
  have port : (u.entering new).port p = u.port p := by cases p <;> rfl
  rw [changed_port, toned_on, followed_on, calls, (toned_frame _ _).1]
  refine ⟨rfl, fun f => ?_⟩
  unfold LaneUnit.followed at f
  split at f
  · next e => rw [e]; rw [port] at f ⊢; exact (h p).2 f
  · split at f
    · assumption
    · exact absurd rfl f

theorem changed_fit {u : LaneUnit} (new : LaneState) (capture : Bool) (h : u.fit) : (u.changed new capture).fit := by
  refine ⟨?_, changed_receiversOk new capture h.2⟩
  rw [LaneUnit.keysOnce, changed_kb]
  split
  · show (Keyboard.entered .scanning u.settings.pass).downKeys.Nodup
    rw [entered_downKeys]; exact List.nodup_nil
  · split
    · exact h.1
    · rw [entered_downKeys]; exact List.nodup_nil

theorem withSettings_once {kb : Keyboard} (old new : LaneSettings) (h : kb.downKeys.Nodup) : (kb.withSettings old new).downKeys.Nodup := by
  have start := (KeyWork.once_iff ⟨kb.image, kb.blocked, []⟩).1 h
  obtain ⟨image, blocked, apart⟩ := start
  have inside : (kb.image.filter new.usesKey).Nodup := image.filter _
  rw [← List.take_append_drop new.rollover (kb.image.filter new.usesKey), List.nodup_append] at inside
  obtain ⟨kept, moved, distinct⟩ := inside
  have left (k : Key) (hk : k ∈ (kb.blocked.filter fun e => new.usesKey e.1).map Prod.fst) : k ∈ kb.blocked.map Prod.fst := by
    obtain ⟨e, he, rfl⟩ := List.mem_map.1 hk
    exact List.mem_map_of_mem (List.mem_filter.1 he).1
  have mem_inside {k : Key} (hk : k ∈ kb.image.filter new.usesKey) : k ∈ kb.image := (List.mem_filter.1 hk).1
  refine (KeyWork.once_iff ⟨(kb.withSettings old new).image, (kb.withSettings old new).blocked, []⟩).2 ⟨kept, ?_, fun k hk hb => ?_⟩
  · show ((kb.blocked.filter _ ++ _).map Prod.fst).Nodup
    rw [List.map_append, List.map_map, List.nodup_append]
    refine ⟨(blocked.sublist (List.filter_sublist.map _)), by simpa [Function.comp_def] using moved, fun a ha b hb e => ?_⟩
    rw [show (Prod.fst ∘ fun k : Key => (k, BlockReason.rollover)) = id from rfl, List.map_id] at hb
    exact apart b (mem_inside (List.mem_of_mem_drop hb)) (e ▸ left a ha)
  · change k ∈ (kb.blocked.filter _ ++ _).map Prod.fst at hb
    rw [List.map_append, List.map_map, List.mem_append, show (Prod.fst ∘ fun k : Key => (k, BlockReason.rollover)) = id from rfl,
      List.map_id] at hb
    rcases hb with hb | hb
    · exact apart k (mem_inside (List.mem_of_mem_take hk)) (left k hb)
    · exact distinct k hk k hb rfl

/-! ## What an event of the lane keeps -/

/-- From `s` to `t` lane `l` stays `fit`. -/
def Fits (l : Lane) (s t : State) : Prop := (s.lane l).fit → (t.lane l).fit

theorem Fits.refl (l : Lane) (s : State) : Fits l s s := id

theorem Fits.trans {l : Lane} {s t u : State} (a : Fits l s t) (b : Fits l t u) : Fits l s u := b ∘ a

theorem Fits.booked {l : Lane} {s t : State} (h : Booked (s.lane l) (t.lane l)) : Fits l s t := fun f => f.booked h

theorem Fits.offer (l : Lane) (s : State) (b : RecordBody) : Fits l s (s.offer l b) := .booked (booked_offer s l l b)

theorem Fits.count (l : Lane) (s : State) (c : Counter) : Fits l s (s.count l c) := .booked (booked_count s l l c)

theorem Fits.modLane {l : Lane} {s : State} {f : LaneUnit → LaneUnit} (h : (s.lane l).fit → (f (s.lane l)).fit) :
    Fits l s (s.modLane l f) := by
  rw [Fits, lane_modLane_same]; exact h

theorem Fits.modDrawer (l : Lane) (s : State) (f : Drawer → Drawer) : Fits l s (s.modDrawer l f) := .modLane fun h => h

theorem Fits.modKeylock (l : Lane) (s : State) (f : Keylock → Keylock) : Fits l s (s.modKeylock l f) := .modLane fun h => h

theorem Fits.modAcceptor (l : Lane) (s : State) (f : Acceptor → Acceptor) : Fits l s (s.modAcceptor l f) := .modLane fun h => h

theorem Fits.laneRewrite (l : Lane) (s : State) : Fits l s (s.laneRewrite l) := .modLane fun h => h

theorem Fits.restartIdle (l : Lane) (s : State) : Fits l s (s.restartIdle l) := .modLane fun h => by
  split <;> exact h

theorem Fits.modKb {l : Lane} {s : State} {f : Keyboard → Keyboard} (keys : (f (s.lane l).kb).downKeys = (s.lane l).kb.downKeys) :
    Fits l s (s.modKb l f) := .modLane fun h => h.congr keys (fun p => by cases p <;> rfl) (fun p => by cases p <;> rfl)
      fun p => by cases p <;> exact .inl

theorem Fits.modPort {l : Lane} {s : State} (p : Port) {f : ScanPort → ScanPort}
    (on : (f ((s.lane l).port p)).on = ((s.lane l).port p).on)
    (frame : (f ((s.lane l).port p)).frame ≠ .waiting → ((s.lane l).port p).frame ≠ .waiting ∨ ((s.lane l).port p).on = true) :
    Fits l s (s.modPort l p f) := .modLane fun h => h.modPort p on frame

/-- A port change that begins no frame. -/
theorem Fits.modPort_keep {l : Lane} {s : State} (p : Port) {f : ScanPort → ScanPort} (h : ∀ q, (f q).on = q.on)
    (frame : ∀ q, (f q).frame = q.frame ∨ (f q).frame = .waiting) : Fits l s (s.modPort l p f) :=
  .modPort p (h _) fun w => .inl fun e => w ((frame _).elim (fun x => x.trans e) id)

theorem Fits.cutFrame (l : Lane) (s : State) (p : Port) : Fits l s (s.cutFrame l p) := fun h =>
  (h.modPort p (cut_on _) fun f => .inl (cut_frame _ f)).booked (booked_cutFrame s l p)

theorem Fits.changeLane (l : Lane) (s : State) (new : LaneState) (cause : StateCause) (capture : Bool) :
    Fits l s (s.changeLane l new cause capture) := fun h => (changed_fit new capture h).booked (booked_changeLane s l new cause capture)

theorem Fits.wake (l : Lane) (s : State) (w : WakeSource) : Fits l s (s.wake l w) := by
  rw [wake_eq]
  split
  · exact Fits.changeLane l s _ _ _
  · exact Fits.refl l s

theorem Fits.drawerEvent (l : Lane) (s : State) (f : Drawer → Drawer) (cause : DrawerCause) (value : Word32) :
    Fits l s (s.drawerEvent l f cause value) := by
  simp only [State.drawerEvent]
  refine ((Fits.modDrawer l s f).trans (Fits.laneRewrite l _)).trans (Fits.trans ?_ (Fits.offer l _ _))
  split
  · exact Fits.refl l _
  · exact Fits.wake l _ _

/-! ## The keyboard and the keylock -/

theorem Fits.runPass (l : Lane) (s : State) (raw : BitVec 128) : Fits l s (s.runPass l raw) := fun h => by
  refine ⟨keysOnce_runPass h.1 raw, ?_⟩
  obtain ⟨-, -, -, -, -, -, rs, -, moved⟩ := runPass_spec s l raw
  have unit := moved.unit
  rw [counted_lane] at unit
  rw [runPass_eq, State.modKb, lane_modLane_same, unit]
  exact h.2

theorem Fits.repeatKey (l : Lane) (s : State) (k : Key) : Fits l s (s.repeatKey l k) := by
  simp only [State.repeatKey]
  have start : Fits l s (s.modKb l fun kb =>
      { kb with typematic := some { key := k, repeating := true, left := msTicks (s.lane l).settings.repeatMs } }) := Fits.modKb rfl
  split
  · exact start
  · exact start.trans (Fits.offer l _ _)

theorem examine_fit {u : LaneUnit} (active : Bool) (h : u.fit) : (u.examine active).fit := by
  obtain ⟨-, image, blocked⟩ := examined_keys u.kb u.settings.debounce active
  refine h.congr ?_ (fun p => by cases p <;> rfl) (fun p => by cases p <;> rfl) fun p => by cases p <;> exact .inl
  show (u.kb.examined u.settings.debounce active).image ++ (u.kb.examined u.settings.debounce active).blocked.map Prod.fst = _
  rw [image, blocked]; rfl

theorem Fits.detectKey (l : Lane) (s : State) : Fits l s (s.detectKey l) := by
  simp only [State.detectKey]
  split
  · exact (Fits.wake l s .key).trans (Fits.modKb rfl)
  · exact Fits.wake l s .key

theorem takeReading_eq (u : LaneUnit) : u.takeReading = { u with keylock := u.takeReading.keylock } := by
  unfold LaneUnit.takeReading
  split <;> rfl

theorem setContacts_eq (u : LaneUnit) (contacts : BitVec 4) : u.setContacts contacts = { u with keylock := (u.setContacts contacts).keylock } := by
  unfold LaneUnit.setContacts
  split
  · rfl
  · dsimp only
    split
    · rw [takeReading_eq]
    · rfl

theorem setContacts_fit {u : LaneUnit} (contacts : BitVec 4) (h : u.fit) : (u.setContacts contacts).fit := by
  rw [setContacts_eq]; exact h

theorem Fits.adopt (l : Lane) (s : State) (pos : Position) (indeterminate : Bool) : Fits l s (s.adopt l pos indeterminate) := by
  simp only [State.adopt]
  refine Fits.trans (t := s.modLane l fun u =>
    { u with keylock := { u.keylock with position := pos, candidate := none, settle := none }, rewrite := true }) (.modLane fun h => h) ?_
  refine ((Fits.wake l _ .keylock).trans (Fits.offer l _ (.keylock pos (s.lane l).keylock.position indeterminate))).trans ?_
  split
  · exact Fits.offer l _ _
  · exact Fits.refl l _

theorem Fits.keylockIndeterminate (l : Lane) (s : State) : Fits l s (s.keylockIndeterminate l) := by
  simp only [State.keylockIndeterminate]
  split
  · exact Fits.modKeylock l s _
  · exact (Fits.modKeylock l s _).trans (Fits.adopt l _ _ _)

/-! ## The ports and the acceptor -/

theorem Fits.stopTone (l : Lane) (s : State) (p : Port) : Fits l s (s.modPort l p ScanPort.stopTone) :=
  .modPort_keep p (fun _ => rfl) fun _ => .inl rfl

theorem Fits.startTone (l : Lane) (s : State) (p : Port) (c : PortSettings) (bad : Bool) :
    Fits l s (s.modPort l p fun q => q.startTone c bad) := .modPort_keep p (fun _ => rfl) fun _ => .inl rfl

theorem Fits.toWaiting (l : Lane) (s : State) (p : Port) : Fits l s (s.modPort l p ScanPort.toWaiting) :=
  .modPort_keep p (fun _ => rfl) fun _ => .inr rfl

theorem toneStep_eq (q : ScanPort) : q.toneStep = { q with toneOn := q.toneStep.toneOn, tone := q.toneStep.tone } := by
  unfold ScanPort.toneStep
  split
  · rfl
  · split <;> rfl

theorem Fits.toneStep (l : Lane) (s : State) (p : Port) : Fits l s (s.modPort l p ScanPort.toneStep) :=
  .modPort_keep p (fun q => by rw [toneStep_eq]) fun q => .inl (by rw [toneStep_eq])

theorem Fits.refuseLabel (l : Lane) (s : State) (p : Port) (why : RefuseReason) : Fits l s (s.refuseLabel l p why) :=
  (Fits.offer l s _).trans (Fits.count l _ _)

theorem Fits.suppressLabel (l : Lane) (s : State) (p : Port) : Fits l s (s.suppressLabel l p) := by
  simp only [State.suppressLabel]
  split
  · exact ((Fits.modAcceptor l s _).trans (Fits.count l _ _)).trans (Fits.offer l _ _)
  · exact (Fits.modAcceptor l s _).trans (Fits.count l _ _)

theorem Fits.acceptLabel (l : Lane) (s : State) (f : Frame) (passed : Bool) : Fits l s (s.acceptLabel l f passed) := by
  simp only [State.acceptLabel]
  refine Fits.trans ((Fits.modAcceptor l s fun _ =>
    { last := some { text := f.text, port := f.port, time := s.run.clock }, keySince := false }).trans
      ((Fits.count l _ .labelsOk).trans (Fits.offer l _ (.label f.port f.mark passed f.text)))) ?_
  split
  · exact Fits.restartIdle l _
  · exact (Fits.startTone l _ _ _ _).trans (Fits.restartIdle l _)

theorem Fits.judge (l : Lane) (s : State) (f : Frame) : Fits l s (s.judge l f) := by
  simp only [State.judge]
  split
  · exact Fits.refuseLabel l s _ _
  split
  · exact Fits.refuseLabel l s _ _
  split
  · exact Fits.refuseLabel l s _ _
  split
  · exact Fits.refuseLabel l s _ _
  split
  · exact Fits.refuseLabel l s _ _
  split
  · exact Fits.suppressLabel l s _
  · exact Fits.acceptLabel l s f _

theorem Fits.endFrame (l : Lane) (s : State) (p : Port) : Fits l s (s.endFrame l p) := by
  simp only [State.endFrame]
  split
  · exact Fits.toWaiting l s p
  · exact (Fits.toWaiting l s p).trans (Fits.judge l _ _)

theorem Fits.fragment (l : Lane) (s : State) (p : Port) : Fits l s (s.fragment l p) :=
  ((Fits.offer l s _).trans (Fits.count l _ _)).trans (Fits.toWaiting l _ p)

theorem place_on (q : ScanPort) (c : PortSettings) (value : Byte) (err : Bool) :
    (q.place c value err).on = q.on ∧ (q.place c value err).frame = q.frame := by
  unfold ScanPort.place
  dsimp only
  split_ifs <;> exact ⟨rfl, rfl⟩

theorem Fits.holdFrame (l : Lane) (s : State) {p : Port} (on : ((s.lane l).port p).on = true) : Fits l s (s.holdFrame l p) := by
  simp only [State.holdFrame]
  have start : Fits l s (s.modPort l p fun q => { q.clearFrame with
      frame := .discarding, gap := some (msTicks ((s.lane l).portSettings p).gapMs) }) := .modPort p rfl fun _ => .inr on
  split
  · exact start.trans ((Fits.offer l _ _).trans (Fits.count l _ _))
  · exact start

theorem Fits.beginFrame (l : Lane) (s : State) {p : Port} (value : Byte) (err : Bool) (on : ((s.lane l).port p).on = true) :
    Fits l s (s.beginFrame l p value err) := by
  simp only [State.beginFrame]
  split
  · exact .modPort_keep p (fun _ => rfl) fun _ => .inl rfl
  · split
    · exact (Fits.modPort p (place_on ..).1 fun _ => .inr on).trans (Fits.wake l _ _)
    · exact Fits.holdFrame l s on

theorem Fits.takeChar (l : Lane) (s : State) {p : Port} (value : Byte) (err : Bool) (on : ((s.lane l).port p).on = true) :
    Fits l s (s.takeChar l p value err) := by
  simp only [State.takeChar]
  split
  · exact Fits.beginFrame l s value err on
  · split
    · exact Fits.endFrame l s p
    · exact .modPort_keep p (fun q => (place_on q ..).1) fun q => .inl (place_on q ..).2
  · split
    · exact Fits.toWaiting l s p
    · exact .modPort_keep p (fun _ => rfl) fun _ => .inl rfl

theorem Fits.receive (l : Lane) (s : State) {p : Port} (ch : RxChar) (hears : ((s.lane l).port p).hears = true) :
    Fits l s (s.receive l p ch) := by
  have on : ((s.lane l).port p).on = true := (Bool.and_eq_true_iff.1 hears).1
  simp only [State.receive]
  split
  · refine (Fits.modPort_keep (l := l) (s := s) p (f := fun q => { q with lineLow := true }) (fun _ => rfl) fun _ => .inl rfl).trans
      (Fits.takeChar l _ _ _ ?_)
    rw [port_modPort_same]; exact on
  · exact Fits.takeChar l s _ _ on

/-! ## The drawer -/

theorem Fits.forcedOpening (l : Lane) (s : State) : Fits l s (s.forcedOpening l) := by
  simp only [State.forcedOpening]
  split
  · exact ((Fits.drawerEvent l s _ _ _).trans (Fits.count l _ _)).trans (Fits.offer l _ _)
  · exact (Fits.drawerEvent l s _ _ _).trans (Fits.count l _ _)

theorem Fits.sensorOpen (l : Lane) (s : State) : Fits l s (s.sensorOpen l) := by
  simp only [State.sensorOpen]
  split
  · exact Fits.drawerEvent l s _ _ _
  · exact Fits.drawerEvent l s _ _ _
  · split
    · exact Fits.drawerEvent l s _ _ _
    · exact Fits.forcedOpening l s
  all_goals exact Fits.refl l s

theorem Fits.sensorClosed (l : Lane) (s : State) : Fits l s (s.sensorClosed l) := by
  simp only [State.sensorClosed]
  split
  iterate 3 exact Fits.drawerEvent l s _ _ _
  all_goals exact Fits.refl l s

theorem Fits.settleSensor (l : Lane) (s : State) : Fits l s (s.settleSensor l) := by
  simp only [State.settleSensor]
  split
  · exact (Fits.modDrawer l s _).trans (Fits.sensorOpen l _)
  · exact (Fits.modDrawer l s _).trans (Fits.sensorClosed l _)

theorem Fits.alertMark (l : Lane) (s : State) : Fits l s (s.alertMark l) := by
  simp only [State.alertMark]
  split
  · exact Fits.drawerEvent l s _ _ _
  · exact Fits.modDrawer l s _

theorem Fits.testResult (l : Lane) (s : State) (followed : Bool) : Fits l s (s.testResult l followed) := by
  simp only [State.testResult]
  split
  · split
    · exact (Fits.modDrawer l s _).trans (Fits.drawerEvent l _ _ _ _)
    · exact Fits.modDrawer l s _
  · split
    · exact (Fits.modDrawer l s _).trans (Fits.drawerEvent l _ _ _ _)
    · exact Fits.modDrawer l s _

theorem Fits.reloadDrawer (l : Lane) (s : State) : Fits l s (s.reloadDrawer l) := by
  simp only [State.reloadDrawer]
  split
  · split
    · split
      · exact (Fits.modDrawer l s _).trans (Fits.drawerEvent l _ _ _ _)
      · exact Fits.modDrawer l s _
    · exact Fits.drawerEvent l s _ _ _
  · split
    · exact Fits.drawerEvent l s _ _ _
    · exact Fits.refl l s

end Sys2Proof.Machine
end

section
/-! PROOFS. New settings that reach a lane (R12, R36 to R38, R58, R77, R87, R89, R94, R95): what each part of the lane makes of them, at a load
and at a reload alike. -/

namespace Sys2Proof.Machine

/-! ## A port -/

/-- A port that takes the settings in force is cut, restarted or turned OFF (R42, R55, R58). -/
theorem reloadedPort_eq (u : LaneUnit) (p : Port) :
    u.reloadedPort p = portAfter (u.port p) (u.portSettings p) u.configured u.laneState := by
  have works : (u.laneState == .active || u.laneState == .doze) = decide (u.laneState = .active ∨ u.laneState = .doze) := by
    cases u.laneState <;> rfl
  have cut : (u.port p).cut = { u.port p with
      mark := (u.port p).cut.mark, text := (u.port p).cut.text, damaged := (u.port p).cut.damaged, tooLong := (u.port p).cut.tooLong
      frame := (u.port p).cut.frame } := by
    unfold ScanPort.cut; split <;> rfl
  unfold LaneUnit.reloadedPort
  rw [cut]
  generalize u.port p = q
  have on : u.receiverOn p = (u.configured && ((u.portSettings p).enable && decide (u.laneState = .active ∨ u.laneState = .doze))) := by
    rw [← works, LaneUnit.receiverOn, Bool.and_assoc]
  rw [on, portAfter]
  cases u.configured <;> cases (u.portSettings p).enable <;> cases u.laneState <;> rfl

/-- A port restarted or turned OFF with the settings `c`, its pattern stopped where it may not go on (R55, R58). -/
def LaneUnit.restarted (u : LaneUnit) (p : Port) (q : ScanPort) : ScanPort :=
  let q := if u.receiverOn p then q.turnOn (u.portSettings p) else q.turnOff
  u.toned (if (u.portSettings p).enable then q else q.stopTone)

theorem modPort_modPort (u : LaneUnit) (p : Port) (f g : ScanPort → ScanPort) :
    (u.modPort p f).modPort p g = u.modPort p fun q => g (f q) := by
  cases p <;> rfl

theorem lane_modPort (s : State) (l : Lane) (p : Port) (f : ScanPort → ScanPort) : (s.modPort l p f).lane l = (s.lane l).modPort p f :=
  lane_modLane_same ..

theorem modPort_portSettings (u : LaneUnit) (p q : Port) (f : ScanPort → ScanPort) : (u.modPort p f).portSettings q = u.portSettings q := by
  cases p <;> cases q <;> rfl

theorem modPort_toned (u : LaneUnit) (p : Port) (f : ScanPort → ScanPort) (q : ScanPort) : (u.modPort p f).toned q = u.toned q := by
  cases p <;> rfl

theorem modPort_congr (u : LaneUnit) (p : Port) {f g : ScanPort → ScanPort} (h : f (u.port p) = g (u.port p)) :
    u.modPort p f = u.modPort p g := by
  cases p
  · exact congrArg (fun q => { u with portA := q }) h
  · exact congrArg (fun q => { u with portB := q }) h

theorem lane_reloadPort (s : State) (l : Lane) (p : Port) :
    (s.reloadPort l p).lane l = ((s.cutFrame l p).lane l).modPort p (((s.cutFrame l p).lane l).restarted p) := by
  simp only [State.reloadPort]
  generalize s.cutFrame l p = x
  rw [followTone_lane]
  unfold LaneUnit.restarted
  split <;> simp only [lane_modPort, modPort_modPort, modPort_toned, *]

theorem restarted_booked {u v : LaneUnit} (h : Booked u v) (p : Port) (q : ScanPort) : v.restarted p q = u.restarted p q := by
  rw [h.1]; rfl

theorem modPort_restarted (u : LaneUnit) (p : Port) (f : ScanPort → ScanPort) (q : ScanPort) :
    (u.modPort p f).restarted p q = u.restarted p q := by
  cases p <;> rfl

theorem restarted_cut (u : LaneUnit) (p : Port) :
    u.restarted p (u.port p).cut = portAfter (u.port p) (u.portSettings p) u.configured u.laneState := by
  rw [← reloadedPort_eq]; rfl

/-- A port that takes the settings in force: the count and the record of a cut are the only more. -/
theorem booked_reloadPort (s : State) (l : Lane) (p : Port) :
    Booked ((s.lane l).modPort p fun q => portAfter q ((s.lane l).portSettings p) (s.lane l).configured (s.lane l).laneState)
      ((s.reloadPort l p).lane l) := by
  have cut := booked_cutFrame s l p
  rw [lane_reloadPort]
  have after := cut.modPort p ((s.lane l).restarted p) (((s.cutFrame l p).lane l).restarted p)
    (by rw [port_booked cut, restarted_booked cut, modPort_restarted])
  rw [modPort_modPort] at after
  rwa [modPort_congr (g := fun q => (s.lane l).restarted p q.cut)]
  exact (restarted_cut _ p).symm

/-! ## The drawer controller -/

theorem drawer_wake (s : State) (l : Lane) (w : WakeSource) : ((s.wake l w).lane l).drawer = (s.lane l).drawer := (wake_fields s l w).1

theorem drawer_drawerEvent (s : State) (l : Lane) (f : Drawer → Drawer) (cause : DrawerCause) (value : Word32) :
    ((s.drawerEvent l f cause value).lane l).drawer = f (s.lane l).drawer := by
  simp only [State.drawerEvent, offer_lane_drawer]
  split
  · simp [State.modDrawer, State.laneRewrite]
  · rw [drawer_wake]; simp [State.modDrawer, State.laneRewrite]

theorem start_eq {d : Drawer} (c : DrawerSettings) (now : Word32) (stopped : d.running = false) :
    d.start c now = drawerAfter d c true now := by
  simp only [drawerAfter, stopped, Drawer.start, startUnlessZero]
  cases raw : d.rawOpen <;> by_cases h : c.presenceS = 0 <;>
    simp [raw, h, Drawer.endKick, Drawer.openAt, drawerOpened, secTicks]

theorem stop_eq {d : Drawer} (c : DrawerSettings) (now : Word32) (running : d.running = true) : d.stop = drawerAfter d c false now := by
  simp only [drawerAfter, running]
  rfl

/-- The settings of a controller that goes on (R87, R89, R94). -/
def Drawer.refit (d : Drawer) (c : DrawerSettings) (now : Word32) : Drawer :=
  if c.presenceS = 0 ∧ d.cond = .absent then (d.newInterval c).leaveAbsent c now else d.newInterval c

theorem newInterval_cond (d : Drawer) (c : DrawerSettings) : (d.newInterval c).cond = d.cond := by
  unfold Drawer.newInterval Drawer.compareRaw
  repeat' split
  all_goals rfl

theorem drawerAfter_goesOn {d : Drawer} (c : DrawerSettings) (now : Word32) (running : d.running = true) :
    drawerAfter d c true now =
      let e := { d with
        measuring := if c.presenceS = 0 then none else d.measuring
        settle := if c.presenceS = 0 ∧ d.measuring ≠ none then
            (if d.rawOpen = d.settledOpen then none else some (msTicks c.settleMs))
          else d.settle
        presence := if c.presenceS = 0 then none
          else if d.measuring = none ∧ d.presence = none then some (secTicks c.presenceS) else d.presence }
      if c.presenceS = 0 ∧ d.cond = .absent then
        (if d.settledOpen then { drawerOpened e c now with failCount := 0 }
        else { e with cond := .closed, ajarFault := false, failCount := 0 })
      else e := by
  unfold drawerAfter
  split
  · next stopped _ => simp [running] at stopped
  · next stopped _ => simp [running] at stopped
  · next h => cases h
  · rfl

/-- The presence interval of a controller that goes on (R87; log 25). -/
theorem newInterval_eq (d : Drawer) (c : DrawerSettings) : d.newInterval c = { d with
    measuring := if c.presenceS = 0 then none else d.measuring
    settle := if c.presenceS = 0 ∧ d.measuring ≠ none then
        (if d.rawOpen = d.settledOpen then none else some (msTicks c.settleMs))
      else d.settle
    presence := if c.presenceS = 0 then none
      else if d.measuring = none ∧ d.presence = none then some (secTicks c.presenceS) else d.presence } := by
  unfold Drawer.newInterval
  by_cases h : c.presenceS = 0
  · cases d
    case mk measuring _ _ _ =>
      cases measuring with
      | none => simp [h]
      | some n =>
        simp [h, Drawer.compareRaw]
        split <;> rfl
  · simp only [h, false_and, if_false, Bool.and_eq_true, Option.isNone_iff_eq_none]
    split <;> rfl

theorem refit_eq {d : Drawer} (c : DrawerSettings) (now : Word32) (running : d.running = true) :
    d.refit c now = drawerAfter d c true now := by
  rw [drawerAfter_goesOn c now running, Drawer.refit, newInterval_eq]
  dsimp only
  split
  · unfold Drawer.leaveAbsent
    split <;> rfl
  · rfl

theorem drawer_reloadDrawer (s : State) (l : Lane) :
    ((s.reloadDrawer l).lane l).drawer =
      drawerAfter (s.lane l).drawer (s.lane l).settings.drawer (s.lane l).drawerRuns s.run.clock := by
  simp only [State.reloadDrawer]
  cases runs : (s.lane l).drawerRuns <;> cases running : (s.lane l).drawer.running <;> simp only [Bool.false_eq_true, if_false, if_true]
  · simp only [drawerAfter, running]
  · rw [drawer_drawerEvent, stop_eq _ _ running]
  · rw [drawer_drawerEvent, start_eq _ _ running]
  · rw [← refit_eq _ _ running, Drawer.refit]
    split
    · rw [drawer_drawerEvent]; simp [State.modDrawer]
    · simp [State.modDrawer]

/-! ## The keylock reader and the keyboard -/

theorem keylock_followReader (u : LaneUnit) :
    u.followReader.keylock = keylockAfter u.keylock u.settings.settleMs u.readerRuns := by
  unfold LaneUnit.followReader keylockAfter
  cases runs : u.readerRuns <;> cases running : u.keylock.running <;> simp only [reduceIte, Bool.false_eq_true, Bool.true_eq_false]
  simp only [LaneUnit.takeReading]
  cases e : positionOf u.keylock.contacts with
  | none => rfl
  | some pos =>
    simp only [Keylock.valid]

theorem keysRefitted_withSettings (kb : Keyboard) (old new : LaneSettings) : KeysRefitted kb (kb.withSettings old new) old new := by
  refine ⟨rfl, rfl, rfl, fun k => ?_, ?_⟩
  · simp [Keyboard.withSettings]
  · show kb.typematic.filter _ = kb.typematic.filter _
    congr 1
    funext y
    rw [Bool.decide_and]
    simp [Keyboard.withSettings]

end Sys2Proof.Machine
end

section
/-! PROOFS. A lane unit as every step keeps it (R20 to R26, R41, R42, R46, R80, R84, R92, R158), and the deliveries of settings, which alone
change what its invariants are measured by. -/

namespace Sys2Proof.Machine

/-! ## The invariants of one lane unit -/

/-- What every step keeps of a lane unit. -/
structure LaneUnit.sound (u : LaneUnit) : Prop where
  ok : u.ok
  fit : u.fit
  settings : u.settingsOk

theorem LaneUnit.settingsOk.congr {u v : LaneUnit} (h : u.settingsOk) (configured : v.configured = u.configured)
    (settings : v.settings = u.settings) (store : v.store = u.store) : v.settingsOk := by
  rw [LaneUnit.settingsOk, configured, settings, store]; exact h

theorem LaneUnit.sound.booked {u v : LaneUnit} (h : u.sound) (b : Booked u v) : v.sound := by
  rw [b.1]
  exact ⟨h.ok, h.fit, h.settings⟩

theorem sound_dropCapture {u : LaneUnit} (h : u.sound) : u.dropCapture.sound := ⟨h.ok, h.fit, h.settings⟩

theorem cut_ok {q : ScanPort} (h : q.ok) : q.cut.ok := by
  unfold ScanPort.cut
  split
  · exact port_ok_of_empty ⟨rfl, rfl, rfl, rfl⟩
  · exact h

theorem sound_cut {u : LaneUnit} (h : u.sound) : u.cut.sound := by
  obtain ⟨⟨drawer, a, b, keys⟩, fit, settings⟩ := h
  exact ⟨⟨drawer, cut_ok a, cut_ok b, keys⟩, fit.cut, settings⟩

/-- A lane unit that is not configured, with no key, both receivers OFF, and a drawer that is `ok`. -/
theorem sound_of_cleared {u v : LaneUnit} (ports : v.portA = .reset ∧ v.portB = .reset) (kb : v.kb = .reset) (off : v.configured = false)
    (drawer : v.drawer.ok) (store : v.store = none ∨ v.store = u.store) (h : u.settingsOk) : v.sound := by
  obtain ⟨a, b⟩ := ports
  have empty : ScanPort.reset.ok := port_ok_of_empty ⟨rfl, rfl, rfl, rfl⟩
  refine ⟨⟨drawer, a ▸ empty, b ▸ empty, ?_⟩, ⟨?_, fun p => ?_⟩, fun c => by simp [off] at c, fun d hd => ?_⟩
  · rw [LaneUnit.keysOk, kb]; exact ⟨fun _ => ⟨rfl, rfl⟩, Nat.zero_le _⟩
  · exact keysOnce_of_downKeys_nil (by rw [kb]; rfl)
  · have port : v.port p = .reset := by cases p <;> assumption
    rw [port, LaneUnit.receiverOn, off]
    exact ⟨rfl, fun f => absurd rfl f⟩
  · rcases store with e | e
    · simp [e] at hd
    · exact h.2 d (e ▸ hd)

theorem drawer_ok_of_reset {d : Drawer} (closed : d.cond = .closed) (off : d.kickOut = false) (history : d.history.length ≤ 8)
    (count : d.failCount = 0) : d.ok := drawer_ok_of (by simp [closed]) off history (by omega)

theorem sound_unconfigure {u : LaneUnit} (h : u.sound) : u.unconfigure.sound :=
  sound_of_cleared (u := u) ⟨rfl, rfl⟩ rfl rfl (drawer_ok_of_reset rfl rfl h.ok.1.2.2.1 rfl) (.inr rfl) h.settings

theorem sound_afterReset {u : LaneUnit} (h : u.sound) (kind : ResetKind) (clock : Word32) : (u.afterReset kind clock).sound := by
  cases kind with
  | powerOn | link => exact sound_of_cleared ⟨rfl, rfl⟩ rfl rfl (drawer_ok_of_reset rfl rfl (Nat.zero_le _) rfl) (.inl rfl) h.settings
  | soft =>
    refine sound_of_cleared (u := u) ⟨rfl, rfl⟩ rfl rfl (drawer_ok_of_reset rfl rfl ?_ rfl) (.inr rfl) h.settings
    show (rebase u.drawer.history clock).length ≤ 8
    rw [rebase, List.length_map]
    exact h.ok.1.2.2.1

/-! ## Ports and receivers under new settings -/

/-- Both ports under the settings in force. -/
def LaneUnit.portsAfter (u : LaneUnit) : LaneUnit :=
  { u with
    portA := portAfter u.portA u.settings.portA u.configured u.laneState
    portB := portAfter u.portB u.settings.portB u.configured u.laneState }

/-- Both ports of lane `l` take the settings in force. -/
def State.reloadPorts (s : State) (l : Lane) : State := (s.reloadPort l .a).reloadPort l .b

theorem booked_reloadPorts (s : State) (l : Lane) : Booked (s.lane l).portsAfter ((s.reloadPorts l).lane l) := by
  have a := booked_reloadPort s l .a
  have b := booked_reloadPort (s.reloadPort l .a) l .b
  have fields : ((s.reloadPort l .a).lane l).portSettings .b = (s.lane l).portSettings .b ∧
      ((s.reloadPort l .a).lane l).configured = (s.lane l).configured ∧
      ((s.reloadPort l .a).lane l).laneState = (s.lane l).laneState := by
    rw [a.1]; exact ⟨rfl, rfl, rfl⟩
  rw [fields.1, fields.2.1, fields.2.2] at b
  let after (q : ScanPort) := portAfter q ((s.lane l).portSettings .b) (s.lane l).configured (s.lane l).laneState
  have both := a.modPort .b after after (congrArg after (port_booked a .b))
  exact both.trans b

theorem portAfter_spec (q : ScanPort) (c : PortSettings) (configured : Bool) (st : LaneState) :
    (portAfter q c configured st).on = (configured && c.enable && (st == .active || st == .doze)) ∧
      ((portAfter q c configured st).frame ≠ .waiting → (portAfter q c configured st).on = true) := by
  have works : (st == .active || st == .doze) = decide (st = .active ∨ st = .doze) := by cases st <;> rfl
  rw [works, Bool.and_assoc]
  refine ⟨rfl, fun f => ?_⟩
  by_contra off
  exact f (if_neg off)

theorem portsAfter_receiversOk (u : LaneUnit) : u.portsAfter.receiversOk := by
  intro p
  cases p
  · exact portAfter_spec u.portA u.settings.portA u.configured u.laneState
  · exact portAfter_spec u.portB u.settings.portB u.configured u.laneState

theorem reloadPorts_fit {s : State} {l : Lane} (once : (s.lane l).keysOnce) : ((s.reloadPorts l).lane l).fit :=
  LaneUnit.fit.booked (u := (s.lane l).portsAfter) ⟨once, portsAfter_receiversOk _⟩ (booked_reloadPorts s l)

theorem LaneStep.reloadPorts (l : Lane) (s : State) : LaneStep (only l) s (s.reloadPorts l) :=
  (LaneStep.reloadPort l s .a).trans (LaneStep.reloadPort l _ .b)

/-! ## The load of a lane -/

theorem withSettings_keysOk (kb : Keyboard) (old : LaneSettings) {u : LaneUnit} (scanning : kb.mode = .scanning) :
    ({ u with kb := kb.withSettings old u.settings } : LaneUnit).keysOk := by
  have mode : (kb.withSettings old u.settings).mode = kb.mode := by unfold Keyboard.withSettings; rfl
  refine ⟨fun h => absurd (mode.trans scanning) h, ?_⟩
  have image : (kb.withSettings old u.settings).image = (kb.image.filter u.settings.usesKey).take u.settings.rollover := rfl
  rw [image]
  exact List.length_take_le _ _

theorem keysOk_of_empty {u : LaneUnit} (image : u.kb.image = []) (blocked : u.kb.blocked = []) : u.keysOk :=
  ⟨fun _ => ⟨image, blocked⟩, by rw [image]; exact Nat.zero_le _⟩

theorem followScan_keysOk {u : LaneUnit} (idle : u.kb.mode ≠ .scanning → u.kb.image = [] ∧ u.kb.blocked = [])
    (other : u.scanMode ≠ u.kb.mode ∨ u.kb.mode ≠ .scanning) : u.followScan.keysOk := by
  unfold LaneUnit.followScan
  split
  · next same =>
    obtain ⟨image, blocked⟩ := idle (other.resolve_left (absurd same))
    exact keysOk_of_empty image blocked
  · exact keysOk_of_empty rfl rfl

theorem followScan_once {u : LaneUnit} (h : u.keysOnce) : u.followScan.keysOnce := by
  unfold LaneUnit.followScan
  split
  · exact h
  · exact keysOnce_of_downKeys_nil (entered_downKeys _ _)

theorem loadKeyboard_keys {u : LaneUnit} (old : LaneSettings) (idle : u.kb.mode ≠ .scanning → u.kb.image = [] ∧ u.kb.blocked = [])
    (once : u.keysOnce) : (u.loadKeyboard old).keysOk ∧ (u.loadKeyboard old).keysOnce := by
  unfold LaneUnit.loadKeyboard
  split
  · next scans => exact ⟨withSettings_keysOk u.kb old scans.2, withSettings_once old u.settings once⟩
  · next other =>
    refine ⟨followScan_keysOk idle ?_, followScan_once once⟩
    by_contra c
    rw [not_or, not_not, not_not] at c
    exact other ⟨c.1.trans c.2, c.2⟩

theorem LaneSettings.inRange.drawer {c : LaneSettings} (h : c.inRange) : c.drawer.inRange := by
  obtain ⟨-, -, -, -, -, -, -, -, -, -, -, -, -, -, -, -, -, -, -, -, drawer⟩ := h
  exact drawer

theorem settingsOk_taken {u : LaneUnit} (data : List Byte) {held : Option DrawerSettings} (range : ∀ d, held = some d → d.inRange) :
    (u.takeSettings data held).settingsOk := by
  have inRange := loadLane_inRange data held range
  refine ⟨fun _ => inRange, fun d hd => ?_⟩
  obtain rfl := Option.some.inj hd
  exact inRange.drawer

theorem heldDrawer_inRange {s : State} {l : Lane} (h : (s.lane l).settingsOk) : ∀ d, s.heldDrawer l = some d → d.inRange := by
  unfold State.heldDrawer
  split
  · exact h.2
  · exact fun d hd => by cases hd

/-- A lane configured at LOADING is sound. -/
theorem sound_configureLane {s : State} {l : Lane} (h : (s.lane l).sound) (data : List Byte) :
    ((s.configureLane l data).lane l).sound := by
  have start : (s.modLane l fun u => u.configure data (s.heldDrawer l)).lane l = (s.lane l).configure data (s.heldDrawer l) :=
    lane_modLane_same ..
  have settings := settingsOk_taken (u := s.lane l) data (heldDrawer_inRange h.settings)
  have configured : ((s.lane l).configure data (s.heldDrawer l)).ok ∧ ((s.lane l).configure data (s.heldDrawer l)).keysOnce ∧
      ((s.lane l).configure data (s.heldDrawer l)).settingsOk := by
    simp only [LaneUnit.configure]
    generalize hv : ({ (s.lane l).takeSettings data (s.heldDrawer l) with
      configured := true, laneState := _, idle := _, acceptor := _, seq := _, rewrite := _ } : LaneUnit) = v
    have fields : v.kb = (s.lane l).kb ∧ v.drawer = (s.lane l).drawer ∧ v.portA = (s.lane l).portA ∧ v.portB = (s.lane l).portB ∧
        v.settings = ((s.lane l).takeSettings data (s.heldDrawer l)).settings ∧
        v.store = ((s.lane l).takeSettings data (s.heldDrawer l)).store := by
      subst hv; exact ⟨rfl, rfl, rfl, rfl, rfl, rfl⟩
    obtain ⟨kb, drawer, portA, portB, range, store⟩ := fields
    obtain ⟨ok, once⟩ := loadKeyboard_keys (u := v) (s.lane l).settings (by rw [kb]; exact h.ok.2.2.2.1)
      (by rw [LaneUnit.keysOnce, kb]; exact h.fit.1)
    have e := loadKeyboard_fields v (s.lane l).settings
    generalize v.loadKeyboard (s.lane l).settings = w at *
    rw [(followReader_fields w).1]
    refine ⟨⟨?_, ?_, ?_, ok⟩, once, fun _ => ?_, ?_⟩
    · rw [e]; exact drawer ▸ h.ok.1
    · rw [e]; exact portA ▸ h.ok.2.1
    · rw [e]; exact portB ▸ h.ok.2.2.1
    · rw [e]; exact range ▸ loadLane_inRange data _ (heldDrawer_inRange h.settings)
    · rw [e]; exact store ▸ settings.2
  rw [← start] at configured
  simp only [State.configureLane]
  generalize s.modLane l _ = x at configured
  have order (p : Port) (y : State) : LaneStep (only l) y (y.modPort l p fun q => { q with orderEnable := true }) := LaneStep.modPort id
  have fits (p : Port) (y : State) : Fits l y (y.modPort l p fun q => { q with orderEnable := true }) :=
    .modPort_keep p (fun _ => rfl) fun _ => .inl rfl
  have step := ((LaneStep.reloadPorts l x).trans ((order .a _).trans (order .b _))).trans (LaneStep.reloadDrawer l _)
  obtain ⟨same, range, -, -, store⟩ := step.settings l
  exact ⟨step.keeps l configured.1, (((fits .a _).trans (fits .b _)).trans (Fits.reloadDrawer l _)) (reloadPorts_fit configured.2.1),
    configured.2.2.congr same range store⟩

end Sys2Proof.Machine
end

section
/-! PROOFS. The delivery of a reload to its lane (R10, R11, R35, R36, R58, R94), one part of the lane after the other. -/

namespace Sys2Proof.Machine

/-! ## The lane state under the lane enable (R11) -/

/-- The lane state that the lane enable in force calls for. -/
def LaneUnit.enabled (u : LaneUnit) : LaneState :=
  if u.settings.enable = false then .disabled else if u.laneState = .disabled then .active else u.laneState

theorem reloadState_same {s : State} {l : Lane} (same : (s.lane l).enabled = (s.lane l).laneState) :
    s.reloadState l = if (s.lane l).settings.enable then s.restartIdle l else s := by
  cases on : (s.lane l).settings.enable <;> by_cases off : (s.lane l).laneState = .disabled
  · simp [State.reloadState, on, off]
  · simp [LaneUnit.enabled, on] at same
    exact absurd same.symm off
  · simp [LaneUnit.enabled, on, off] at same
  · simp [State.reloadState, on, off]

theorem reloadState_change {s : State} {l : Lane} (other : (s.lane l).enabled ≠ (s.lane l).laneState) :
    s.reloadState l = s.changeLane l (s.lane l).enabled .settings ((s.lane l).enabled == .active) := by
  cases on : (s.lane l).settings.enable <;> by_cases off : (s.lane l).laneState = .disabled
  · simp [LaneUnit.enabled, on, off] at other
  · simp [State.reloadState, LaneUnit.enabled, on, off]; rfl
  · simp [State.reloadState, LaneUnit.enabled, on, off]
  · simp [LaneUnit.enabled, on, off] at other

theorem LaneStep.reloadState (l : Lane) (s : State) : LaneStep (only l) s (s.reloadState l) := by
  by_cases same : (s.lane l).enabled = (s.lane l).laneState
  · rw [reloadState_same same]
    split
    · exact LaneStep.restartIdle s
    · exact LaneStep.refl _ s
  · rw [reloadState_change same]
    exact LaneStep.changeLane ..

/-- The lane unit under its lane enable: as it was but for the idle timer, or with its state changed. -/
def LaneUnit.reenabled (u : LaneUnit) : LaneUnit :=
  if u.enabled = u.laneState then
    { u with idle := if u.settings.enable = true ∧ u.laneState = .active then u.settings.idlePeriod else u.idle }
  else u.changed u.enabled (u.enabled == .active)

theorem booked_reloadState (s : State) (l : Lane) : Booked (s.lane l).reenabled ((s.reloadState l).lane l) := by
  by_cases same : (s.lane l).enabled = (s.lane l).laneState
  · rw [LaneUnit.reenabled, if_pos same, reloadState_same same]
    cases on : (s.lane l).settings.enable <;> by_cases active : (s.lane l).laneState = .active
    · simp [Booked.refl]
    · simp [Booked.refl]
    · simp [State.restartIdle, active, Booked.refl]
    · simp [State.restartIdle, active, Booked.refl]
  · rw [LaneUnit.reenabled, if_neg same, reloadState_change same]
    exact booked_changeLane ..

/-- The LANE_STATE record of a change under the lane enable, and the cuts that it makes. -/
def LaneUnit.reenableRecords (u : LaneUnit) : List RecordBody :=
  if u.enabled = u.laneState then [] else u.changeRecords u.enabled .settings

theorem Offers.reloadState (l : Lane) (s : State) : Offers l s (s.reloadState l) (s.lane l).reenableRecords := by
  unfold LaneUnit.reenableRecords
  split
  · next same =>
    rw [reloadState_same same]
    split
    · refine Offers.modLane ?_ ?_ <;> split <;> rfl
    · exact Offers.refl l s
  · next other =>
    rw [reloadState_change other]
    exact Offers.changeLane ..

theorem reenabled_fields (u : LaneUnit) :
    u.reenabled.laneState = u.enabled ∧ u.reenabled.configured = u.configured ∧ u.reenabled.settings = u.settings ∧
      u.reenabled.drawer = u.drawer ∧ u.reenabled.keylock = u.keylock ∧ u.reenabled.acceptor = u.acceptor := by
  unfold LaneUnit.reenabled
  split
  · next same => exact ⟨same.symm, rfl, rfl, rfl, rfl, rfl⟩
  · obtain ⟨laneState, -, -, keylock, drawer, acceptor, configured, settings⟩ := changed_fields u u.enabled (u.enabled == .active)
    exact ⟨laneState, configured, settings, drawer, keylock, acceptor⟩

theorem reenabled_once {u : LaneUnit} (once : u.keysOnce) : u.reenabled.keysOnce := by
  unfold LaneUnit.reenabled
  split
  · exact once
  · rw [LaneUnit.keysOnce, changed_kb]
    split
    · show (Keyboard.entered .scanning u.settings.pass).downKeys.Nodup
      rw [entered_downKeys]; exact List.nodup_nil
    · split
      · exact once
      · rw [entered_downKeys]; exact List.nodup_nil

theorem enabled_of_change {u : LaneUnit} (other : u.enabled ≠ u.laneState) :
    u.enabled = .active ∧ u.laneState = .disabled ∨ u.enabled = .disabled ∧ u.laneState ≠ .disabled := by
  unfold LaneUnit.enabled at other ⊢
  split
  · next off => rw [if_pos off] at other; exact .inr ⟨rfl, other.symm⟩
  · next on =>
    rw [if_neg on] at other
    split
    · next h => exact .inl ⟨rfl, h⟩
    · next h => exact absurd (if_neg h) other

theorem scanMode_disabled (u : LaneUnit) (h : u.laneState = .disabled) : u.scanMode = .idle := by
  simp [LaneUnit.scanMode, h]

/-- A lane that a change of its enable has made ACTIVE or DISABLED has an image within any limit: it is empty. -/
theorem changed_keysOk {u : LaneUnit} (other : u.enabled ≠ u.laneState)
    (idle : u.kb.mode ≠ .scanning → u.kb.image = [] ∧ u.kb.blocked = []) : (u.changed u.enabled (u.enabled == .active)).keysOk := by
  have kb := changed_kb u u.enabled (u.enabled == .active)
  have empty : (u.changed u.enabled (u.enabled == .active)).kb.image = [] ∧ (u.changed u.enabled (u.enabled == .active)).kb.blocked = [] := by
    rw [kb]
    rcases enabled_of_change other with ⟨e, -⟩ | ⟨e, -⟩
    · rw [e]
      exact ⟨rfl, rfl⟩
    · rw [e, if_neg (by decide)]
      split
      · next same =>
        rw [scanMode_disabled _ rfl] at same
        exact idle (by rw [← same]; decide)
      · exact ⟨rfl, rfl⟩
  exact keysOk_of_empty empty.1 empty.2

/-! ## The keyboard scanner of a lane whose state stays (R10, R35, R36) -/

/-- The keyboard scanner after a reload that has left the lane state as it was. -/
def LaneUnit.reloadedKb (u : LaneUnit) (old : LaneSettings) : Keyboard :=
  if u.scanMode ≠ u.kb.mode then Keyboard.entered u.scanMode u.settings.pass
  else match u.kb.mode with
    | .idle => u.kb
    | .anyKey => u.kb.waitClear
    | .scanning =>
      if u.kb.capture.isSome then { Keyboard.entered .scanning u.settings.pass with capture := some u.settings.debounce }
      else u.kb.withSettings old u.settings

/-- The KEY_IMAGE(RELOAD) record of a scanner that goes on with keys removed or moved (R36). -/
def LaneUnit.reloadImage (u : LaneUnit) (old : LaneSettings) : List RecordBody :=
  if u.scanMode = u.kb.mode ∧ u.kb.mode = .scanning ∧ u.kb.capture.isSome = false ∧ u.kb.disturbed u.settings = true then
    [{ u with kb := u.kb.withSettings old u.settings }.imageRecord .reload]
  else []

theorem withSettings_keysUpTo {u : LaneUnit} (old : LaneSettings) (b : Nat) (h : u.keysUpTo b) :
    ({ u with kb := u.kb.withSettings old u.settings } : LaneUnit).keysUpTo b := by
  have mode : (u.kb.withSettings old u.settings).mode = u.kb.mode := by unfold Keyboard.withSettings; rfl
  have image : (u.kb.withSettings old u.settings).image = (u.kb.image.filter u.settings.usesKey).take u.settings.rollover := by
    unfold Keyboard.withSettings; rfl
  have blocked : (u.kb.withSettings old u.settings).blocked = u.kb.blocked.filter (fun e => u.settings.usesKey e.1) ++
      ((u.kb.image.filter u.settings.usesKey).drop u.settings.rollover).map (fun k => (k, .rollover)) := by
    unfold Keyboard.withSettings; rfl
  refine ⟨fun other => ?_, ?_⟩
  · obtain ⟨i, x⟩ := h.1 (mode ▸ other)
    rw [image, blocked, i, x]
    exact ⟨by simp, by simp⟩
  · show (u.kb.withSettings old u.settings).image.length ≤ _
    rw [image]
    exact (List.length_take_le _ _).trans (Nat.le_max_right _ _)

theorem followScan_eq {u : LaneUnit} (other : u.scanMode ≠ u.kb.mode) :
    u.followScan = { u with kb := Keyboard.entered u.scanMode u.settings.pass } := if_neg other

/-- What the reload does to the keyboard scanner, with the record it offers. -/
theorem reloadKeyboard_spec (s : State) (l : Lane) (old : LaneSettings) :
    Booked { s.lane l with kb := (s.lane l).reloadedKb old } ((s.reloadKeyboard l old).lane l) ∧
      Offers l s (s.reloadKeyboard l old) ((s.lane l).reloadImage old) ∧ LaneStep (only l) s (s.reloadKeyboard l old) := by
  simp only [State.reloadKeyboard, LaneUnit.reloadedKb, LaneUnit.reloadImage]
  by_cases other : (s.lane l).scanMode ≠ (s.lane l).kb.mode
  · rw [if_pos other, if_pos other, if_neg fun h => other h.1, followScan_eq other]
    refine ⟨by rw [lane_setLane_same]; exact Booked.refl _, Offers.modLane (f := fun _ => _) rfl rfl, ?_⟩
    rw [← followScan_eq other]
    exact LaneStep.setLane (followScan_keys _).1 (followScan_keys _).2
  · rw [if_neg other, if_neg other]
    have same := not_not.1 other
    cases mode : (s.lane l).kb.mode with
    | idle =>
      simp only [reduceCtorEq, false_and, and_false, if_false]
      exact ⟨Booked.refl _, Offers.refl l s, LaneStep.refl _ s⟩
    | anyKey =>
      simp only [reduceCtorEq, false_and, and_false, if_false]
      exact ⟨by simp only [State.modKb, lane_modLane_same]; exact Booked.refl _, Offers.modLane rfl rfl,
        LaneStep.modKb fun b h => h⟩
    | scanning =>
      rw [mode] at same
      simp only [same, true_and]
      cases capture : (s.lane l).kb.capture.isSome with
      | true =>
        simp only [Bool.true_eq_false, false_and, if_false, if_true]
        exact ⟨by rw [lane_setLane_same]; exact Booked.refl _, Offers.modLane (f := fun _ => _) rfl rfl,
          LaneStep.setLane (startCapture_keys _).1 (startCapture_keys _).2⟩
      | false =>
        have start : LaneStep (only l) s (s.modKb l fun kb => kb.withSettings old (s.lane l).settings) :=
          LaneStep.modKb fun b h => withSettings_keysUpTo old b h
        have lane : (s.modKb l fun kb => kb.withSettings old (s.lane l).settings).lane l =
            { s.lane l with kb := (s.lane l).kb.withSettings old (s.lane l).settings } := by rw [State.modKb, lane_modLane_same]
        have quiet : Offers l s (s.modKb l fun kb => kb.withSettings old (s.lane l).settings) [] := Offers.modLane rfl rfl
        simp only [Bool.false_eq_true, if_false, true_and]
        cases disturbed : (s.lane l).kb.disturbed (s.lane l).settings with
        | true =>
          simp only [if_true, lane]
          exact ⟨lane ▸ booked_offer _ l l _, quiet.trans (Offers.offer l _ _), start.trans (LaneStep.offer _ _)⟩
        | false =>
          simp only [Bool.false_eq_true, if_false, lane]
          exact ⟨Booked.refl _, quiet, start⟩

theorem reloadedKb_keys {u : LaneUnit} (old : LaneSettings) (idle : u.kb.mode ≠ .scanning → u.kb.image = [] ∧ u.kb.blocked = [])
    (once : u.keysOnce) : ({ u with kb := u.reloadedKb old } : LaneUnit).keysOk ∧ (u.reloadedKb old).downKeys.Nodup := by
  unfold LaneUnit.reloadedKb
  split
  · refine ⟨keysOk_of_empty rfl rfl, ?_⟩
    rw [entered_downKeys]; exact List.nodup_nil
  · split
    · next mode =>
      obtain ⟨image, blocked⟩ := idle (by rw [mode]; decide)
      exact ⟨keysOk_of_empty image blocked, once⟩
    · next mode =>
      obtain ⟨image, blocked⟩ := idle (by rw [mode]; decide)
      exact ⟨keysOk_of_empty image blocked, once⟩
    · next mode =>
      split
      · refine ⟨keysOk_of_empty rfl rfl, ?_⟩
        show (Keyboard.entered .scanning u.settings.pass).downKeys.Nodup
        rw [entered_downKeys]; exact List.nodup_nil
      · exact ⟨withSettings_keysOk u.kb old mode, withSettings_once old u.settings once⟩

end Sys2Proof.Machine
end

section
/-! PROOFS. The delivery of a reload to its lane as a whole (R89, R94, R147): what its lane unit becomes, and the records in their order. -/

namespace Sys2Proof.Machine

/-! ## Parts of a lane that counts and records do not reach -/

/-- A function of a lane unit that neither reads nor moves what counts and records move. -/
theorem Booked.lift {u v : LaneUnit} (h : Booked u v) {f : LaneUnit → LaneUnit}
    (comm : ∀ u a b c d e, f { u with counters := a, noted := b, rewrite := c, seq := d, losses := e } =
      { f u with counters := a, noted := b, rewrite := c, seq := d, losses := e }) : Booked (f u) (f v) := by
  have keeps := congrArg LaneUnit.rewrite (comm u u.counters u.noted u.rewrite u.seq u.losses)
  obtain ⟨eq, grows⟩ := h
  have moved := comm u v.counters v.noted v.rewrite v.seq v.losses
  rw [← eq] at moved
  rw [moved]
  exact ⟨rfl, fun r => grows (keeps.symm.trans r)⟩

theorem Booked.followReader {u v : LaneUnit} (h : Booked u v) : Booked u.followReader v.followReader := by
  refine h.lift fun u a b c d e => ?_
  unfold LaneUnit.followReader
  show (if u.readerRuns = u.keylock.running then _ else _) = _
  split
  · rfl
  · show (if u.readerRuns then _ else _) = _
    split
    · unfold LaneUnit.takeReading
      dsimp only
      split <;> rfl
    · rfl

theorem Booked.portsAfter {u v : LaneUnit} (h : Booked u v) : Booked u.portsAfter v.portsAfter := h.lift fun _ _ _ _ _ _ => rfl

theorem Booked.reloadedKb {u v : LaneUnit} (h : Booked u v) (old : LaneSettings) :
    Booked { u with kb := u.reloadedKb old } { v with kb := v.reloadedKb old } :=
  h.lift (f := fun u => { u with kb := u.reloadedKb old }) fun _ _ _ _ _ _ => rfl

/-! ## The drawer controller (R77, R89) -/

/-- The lane unit after a change of its drawer to `d` in a device state that lets a lane wake (R79). -/
def LaneUnit.drawerMoved (u : LaneUnit) (d : Drawer) (inRun : Bool) : LaneUnit :=
  if d.cond ≠ u.drawer.cond ∧ u.laneState = .doze ∧ u.wakesOn .drawer = true ∧ inRun = true then
    { u with drawer := d }.changed .active false
  else { u with drawer := d }

theorem booked_drawerEvent (s : State) (l : Lane) (f : Drawer → Drawer) (cause : DrawerCause) (value : Word32) :
    Booked ((s.lane l).drawerMoved (f (s.lane l).drawer) s.inRun) ((s.drawerEvent l f cause value).lane l) := by
  simp only [State.drawerEvent]
  have lane : ((s.modDrawer l f).laneRewrite l).lane l = { s.lane l with drawer := f (s.lane l).drawer, rewrite := true } := by
    simp [State.modDrawer, State.laneRewrite]
  generalize e : (s.modDrawer l f).laneRewrite l = x at lane
  have inRun : x.inRun = s.inRun := by rw [← e]; rfl
  have start : Booked { s.lane l with drawer := f (s.lane l).drawer } (x.lane l) := by rw [lane]; exact ⟨rfl, fun _ => rfl⟩
  refine Booked.trans ?_ (booked_offer _ l l _)
  have drawer : (x.lane l).drawer = f (s.lane l).drawer := by rw [lane]
  rw [drawer]
  by_cases stays : (f (s.lane l).drawer).cond = (s.lane l).drawer.cond
  · rw [if_pos stays, LaneUnit.drawerMoved, if_neg fun h => h.1 stays]
    exact start
  · rw [if_neg stays, LaneUnit.drawerMoved]
    have woken := booked_wake x l .drawer
    rw [lane] at woken
    by_cases wakes : (s.lane l).laneState = .doze ∧ (s.lane l).wakesOn .drawer = true ∧ s.inRun = true
    · rw [if_pos ⟨stays, wakes⟩]
      rw [if_pos ⟨wakes.1, wakes.2.1, inRun.trans wakes.2.2⟩] at woken
      exact woken
    · rw [if_neg fun h => wakes h.2]
      rw [if_neg fun h => wakes ⟨h.1, h.2.1, inRun.symm.trans h.2.2⟩] at woken
      exact start.trans (lane ▸ woken)

/-- A record tells of the controller's start or stop, and of the end of ABSENT by an interval of 0. -/
def LaneUnit.drawerTells (u : LaneUnit) : Bool :=
  decide (u.drawer.running ≠ u.drawerRuns ∨
    u.drawerRuns = true ∧ u.drawer.running = true ∧ u.settings.drawer.presenceS = 0 ∧ u.drawer.cond = .absent)

/-- The drawer of the lane under the settings in force. -/
def LaneUnit.refittedDrawer (u : LaneUnit) (now : Word32) : Drawer := drawerAfter u.drawer u.settings.drawer u.drawerRuns now

theorem refittedDrawer_silent {u : LaneUnit} (now : Word32) (silent : u.drawerTells = false) :
    (u.refittedDrawer now).cond = u.drawer.cond := by
  simp only [LaneUnit.drawerTells, decide_eq_false_iff_not, not_or, not_not] at silent
  obtain ⟨same, stays⟩ := silent
  unfold LaneUnit.refittedDrawer
  cases runs : u.drawerRuns with
  | false => rw [runs] at same; simp only [drawerAfter, same]
  | true =>
    rw [runs] at same
    rw [← refit_eq _ _ same, Drawer.refit, if_neg fun h => stays ⟨runs, same, h⟩, newInterval_cond]

theorem leaveAbsent_record_cond (d : Drawer) (c : DrawerSettings) (now : Word32) (absent : d.cond = .absent) :
    ((d.newInterval c).ok → ((d.newInterval c).leaveAbsent c now).ok) := fun h =>
  leaveAbsent_ok c now h (by rw [newInterval_cond, absent]; decide)

/-- What new settings do to the drawer's lane, with the records in their order. -/
theorem reloadDrawer_spec (s : State) (l : Lane) :
    Booked ((s.lane l).drawerMoved ((s.lane l).refittedDrawer s.run.clock) s.inRun) ((s.reloadDrawer l).lane l) ∧
    Offers l s (s.reloadDrawer l)
      ((if ((s.lane l).refittedDrawer s.run.clock).cond = (s.lane l).drawer.cond then [] else s.wakeRecords l .drawer) ++
        if (s.lane l).drawerTells then
          [((s.lane l).refittedDrawer s.run.clock).record (s.lane l).drawer.cond .settings 0]
        else []) := by
  have still (silent : (s.lane l).drawerTells = false) :
      (s.lane l).drawerMoved ((s.lane l).refittedDrawer s.run.clock) s.inRun =
        { s.lane l with drawer := (s.lane l).refittedDrawer s.run.clock } :=
    if_neg fun h => h.1 (refittedDrawer_silent _ silent)
  simp only [State.reloadDrawer]
  cases runs : (s.lane l).drawerRuns <;> cases running : (s.lane l).drawer.running <;>
    simp only [Bool.false_eq_true, if_false, if_true]
  · have silent : (s.lane l).drawerTells = false := by simp [LaneUnit.drawerTells, runs, running]
    have same : (s.lane l).refittedDrawer s.run.clock = (s.lane l).drawer := by
      simp only [LaneUnit.refittedDrawer, runs, drawerAfter, running]
    rw [still silent, if_pos (refittedDrawer_silent _ silent), silent, same]
    exact ⟨Booked.refl _, Offers.refl l s⟩
  · have tells : (s.lane l).drawerTells = true := by simp [LaneUnit.drawerTells, runs, running]
    have moved : (s.lane l).drawer.stop = (s.lane l).refittedDrawer s.run.clock := by
      rw [LaneUnit.refittedDrawer, runs, stop_eq _ _ running]
    have event := drawerEvent_spec s l Drawer.stop .settings 0 stop_ok
    have booked := booked_drawerEvent s l Drawer.stop .settings 0
    rw [moved] at event booked
    rw [tells]
    exact ⟨booked, event.2.2.2.2.2.1⟩
  · have tells : (s.lane l).drawerTells = true := by simp [LaneUnit.drawerTells, runs, running]
    have moved : (s.lane l).drawer.start (s.lane l).settings.drawer s.run.clock = (s.lane l).refittedDrawer s.run.clock := by
      rw [LaneUnit.refittedDrawer, runs, start_eq _ _ running]
    have event := drawerEvent_spec s l (fun d => d.start (s.lane l).settings.drawer s.run.clock) .settings 0 (start_ok _ _)
    have booked := booked_drawerEvent s l (fun d => d.start (s.lane l).settings.drawer s.run.clock) .settings 0
    rw [moved] at event booked
    rw [tells]
    exact ⟨booked, event.2.2.2.2.2.1⟩
  · have moved : (s.lane l).drawer.refit (s.lane l).settings.drawer s.run.clock = (s.lane l).refittedDrawer s.run.clock := by
      rw [LaneUnit.refittedDrawer, runs, refit_eq _ _ running]
    have lane : (s.modDrawer l fun d => d.newInterval (s.lane l).settings.drawer).lane l =
        { s.lane l with drawer := (s.lane l).drawer.newInterval (s.lane l).settings.drawer } := by
      rw [State.modDrawer, lane_modLane_same]
    have quiet : Offers l s (s.modDrawer l fun d => d.newInterval (s.lane l).settings.drawer) [] := Offers.modLane rfl rfl
    by_cases ends : (s.lane l).settings.drawer.presenceS = 0 ∧ (s.lane l).drawer.cond = .absent
    · rw [Drawer.refit, if_pos ends] at moved
      have tells : (s.lane l).drawerTells = true := by simp [LaneUnit.drawerTells, runs, running, ends.1, ends.2]
      rw [if_pos ends, tells]
      generalize e : s.modDrawer l _ = x at lane quiet ⊢
      have event := drawerEvent_spec x l (fun d => d.leaveAbsent (s.lane l).settings.drawer s.run.clock) .settings 0
        (by rw [lane]; exact leaveAbsent_record_cond _ _ _ ends.2)
      have booked := booked_drawerEvent x l (fun d => d.leaveAbsent (s.lane l).settings.drawer s.run.clock) .settings 0
      have inRun : x.inRun = s.inRun := by rw [← e]; rfl
      have wake : x.wakeRecords l .drawer = s.wakeRecords l .drawer :=
        wakeRecords_congr .drawer quiet.device (by rw [lane]) (by rw [lane]) (by rw [lane]) (fun p => by rw [lane]; cases p <;> rfl)
      rw [lane] at event booked
      simp only [newInterval_cond] at event
      rw [moved, inRun] at booked
      rw [moved, wake] at event
      have wakesOn : ({ s.lane l with drawer := (s.lane l).drawer.newInterval (s.lane l).settings.drawer } : LaneUnit).wakesOn
          .drawer = (s.lane l).wakesOn .drawer := rfl
      refine ⟨?_, by simpa using quiet.trans event.2.2.2.2.2.1⟩
      simpa only [LaneUnit.drawerMoved, newInterval_cond, wakesOn] using booked
    · rw [Drawer.refit, if_neg ends] at moved
      have silent : (s.lane l).drawerTells = false := by
        simp only [LaneUnit.drawerTells, decide_eq_false_iff_not, not_or, not_not]
        exact ⟨running.trans runs.symm, fun h => ends h.2.2⟩
      rw [if_neg ends, still silent, if_pos (refittedDrawer_silent _ silent), silent, lane, moved]
      exact ⟨Booked.refl _, quiet⟩

end Sys2Proof.Machine
end

section
/-! PROOFS. The delivery of a reload (R89, R94, R147): what its lane unit becomes as a whole, and its records in their order. -/

namespace Sys2Proof.Machine

/-! ## The lane unit, part after part -/

/-- The lane unit with its state, its ports and its keyboard under the settings in force, `old` being those before. -/
def LaneUnit.rekeyed (u : LaneUnit) (old : LaneSettings) : LaneUnit :=
  if u.enabled = u.laneState then { u.reenabled.portsAfter with kb := u.reenabled.portsAfter.reloadedKb old } else u.reenabled.portsAfter

/-- The lane unit with all but its drawer under the settings in force. -/
def LaneUnit.refitted (u : LaneUnit) (old : LaneSettings) : LaneUnit := (u.rekeyed old).followReader

/-- The lane unit with every part under the settings in force, and woken where the drawer's change of condition wakes it. -/
def LaneUnit.reloaded (u : LaneUnit) (old : LaneSettings) (now : Word32) (inRun : Bool) : LaneUnit :=
  (u.refitted old).drawerMoved ((u.refitted old).refittedDrawer now) inRun

/-! ## Its records (R94) -/

/-- The records of the frames in assembly when both ports are cut. -/
def LaneUnit.cutRecords (u : LaneUnit) : List RecordBody :=
  (if u.portA.frame = .assembling then [.labelRefused .a (.cut u.portA.text.length)] else []) ++
    if u.portB.frame = .assembling then [.labelRefused .b (.cut u.portB.text.length)] else []

/-- The records of a wake that the drawer's change to `d` brings (R79). -/
def LaneUnit.movedRecords (u : LaneUnit) (d : Drawer) (inRun : Bool) : List RecordBody :=
  if d.cond ≠ u.drawer.cond ∧ u.laneState = .doze ∧ u.wakesOn .drawer = true ∧ inRun = true then
    u.changeRecords .active (.wake .drawer)
  else []

/-- The record of the controller's start, stop or end of ABSENT. -/
def LaneUnit.drawerRecords (u : LaneUnit) (now : Word32) : List RecordBody :=
  if u.drawerTells then [(u.refittedDrawer now).record u.drawer.cond .settings 0] else []

/-- The records of a reload's delivery in their order (R94). -/
def LaneUnit.reloadRecords (u : LaneUnit) (old : LaneSettings) (now : Word32) (inRun : Bool) : List RecordBody :=
  u.reenableRecords ++ u.reenabled.cutRecords ++
    (if u.enabled = u.laneState then u.reenabled.portsAfter.reloadImage old else []) ++
    (u.refitted old).movedRecords ((u.refitted old).refittedDrawer now) inRun ++ (u.refitted old).drawerRecords now

theorem Offers.reloadPort (l : Lane) (s : State) (p : Port) :
    Offers l s (s.reloadPort l p) (if ((s.lane l).port p).frame = .assembling then
      [.labelRefused p (.cut ((s.lane l).port p).text.length)] else []) := by
  have follow : ∀ x : State, Offers l x (x.followTone l p) [] := fun x => Offers.followTone l x p
  simp only [State.reloadPort]
  have cut := Offers.cutFrame l s p
  generalize s.cutFrame l p = x at cut
  have turned : Offers l x (x.modPort l p fun q =>
      if (x.lane l).receiverOn p then q.turnOn ((x.lane l).portSettings p) else q.turnOff) [] := Offers.modPort
  have all := cut.trans turned
  split
  · simpa using all.trans (follow _)
  · simpa using (all.trans Offers.modPort).trans (follow _)

theorem Offers.reloadPorts (l : Lane) (s : State) : Offers l s (s.reloadPorts l) (s.lane l).cutRecords := by
  have first := Offers.reloadPort l s .a
  have other : ((s.reloadPort l .a).lane l).port .b = (s.lane l).port .b := by
    rw [port_booked (booked_reloadPort s l .a) .b]; rfl
  have second := Offers.reloadPort l (s.reloadPort l .a) .b
  rw [other] at second
  exact first.trans second

theorem Offers.reloadDrawer (l : Lane) (s : State) :
    Offers l s (s.reloadDrawer l) ((s.lane l).movedRecords ((s.lane l).refittedDrawer s.run.clock) s.inRun ++
      (s.lane l).drawerRecords s.run.clock) := by
  have spec := (reloadDrawer_spec s l).2
  rw [LaneUnit.movedRecords, LaneUnit.drawerRecords]
  have wakes : (s.wakes l .drawer = true) ↔
      (s.lane l).laneState = .doze ∧ (s.lane l).wakesOn .drawer = true ∧ s.inRun = true := by
    rw [State.wakes, decide_eq_true_iff, inRun_iff]; rfl
  have moved : (if ((s.lane l).refittedDrawer s.run.clock).cond = (s.lane l).drawer.cond then [] else s.wakeRecords l .drawer) =
      if ((s.lane l).refittedDrawer s.run.clock).cond ≠ (s.lane l).drawer.cond ∧
        (s.lane l).laneState = .doze ∧ (s.lane l).wakesOn .drawer = true ∧ s.inRun = true then
      (s.lane l).changeRecords .active (.wake .drawer) else [] := by
    by_cases stays : ((s.lane l).refittedDrawer s.run.clock).cond = (s.lane l).drawer.cond
    · rw [if_pos stays, if_neg fun h => h.1 stays]
    · rw [if_neg stays, State.wakeRecords]
      by_cases w : s.wakes l .drawer = true
      · rw [if_pos w, if_pos ⟨stays, wakes.1 w⟩]
      · rw [if_neg w, if_neg fun h => w (wakes.2 h.2)]
  rw [← moved]
  exact spec

/-! ## The delivery as a whole -/

theorem followScan_kb (u : LaneUnit) : u.followScan =
    { u with kb := if u.scanMode = u.kb.mode then u.kb else Keyboard.entered u.scanMode u.settings.pass } := by
  unfold LaneUnit.followScan
  split <;> rfl

theorem changed_books (u : LaneUnit) (new : LaneState) (capture : Bool) (a : Vector (BitVec 16) 8) (b : Byte) (c : Bool) (d : BitVec 16)
    (e : Vector Nat 4) :
    ({ u with counters := a, noted := b, rewrite := c, seq := d, losses := e } : LaneUnit).changed new capture =
      { u.changed new capture with counters := a, noted := b, seq := d, losses := e } := by
  unfold LaneUnit.changed
  cases capture
  · simp only [Bool.false_eq_true, if_false]
    rw [followScan_kb, followScan_kb]
    rfl
  · rfl

theorem Booked.changed {u v : LaneUnit} (h : Booked u v) (new : LaneState) (capture : Bool) :
    Booked (u.changed new capture) (v.changed new capture) := by
  have moved := changed_books u new capture v.counters v.noted v.rewrite v.seq v.losses
  rw [← h.1] at moved
  rw [moved]
  exact ⟨rfl, fun r => r⟩

theorem Booked.drawerMoved {u v : LaneUnit} (h : Booked u v) (d : Drawer) (inRun : Bool) :
    Booked (u.drawerMoved d inRun) (v.drawerMoved d inRun) := by
  have moved : Booked { u with drawer := d } { v with drawer := d } :=
    h.lift (f := fun u => { u with drawer := d }) fun _ _ _ _ _ _ => rfl
  have fields : v.drawer = u.drawer ∧ v.laneState = u.laneState ∧ v.wakesOn .drawer = u.wakesOn .drawer := by
    rw [h.1]; exact ⟨rfl, rfl, rfl⟩
  obtain ⟨drawer, laneState, wakesOn⟩ := fields
  unfold LaneUnit.drawerMoved
  by_cases woken : d.cond ≠ u.drawer.cond ∧ u.laneState = .doze ∧ u.wakesOn .drawer = true ∧ inRun = true
  · rw [if_pos woken, if_pos (by rwa [drawer, laneState, wakesOn])]
    exact moved.changed .active false
  · rw [if_neg woken, if_neg (by rwa [drawer, laneState, wakesOn])]
    exact moved

theorem cutRecords_booked {u v : LaneUnit} (h : Booked u v) : v.cutRecords = u.cutRecords := by rw [h.1]; rfl

theorem reloadImage_booked {u v : LaneUnit} (h : Booked u v) (old : LaneSettings) : v.reloadImage old = u.reloadImage old := by
  rw [h.1]; rfl

theorem refittedDrawer_booked {u v : LaneUnit} (h : Booked u v) (now : Word32) : v.refittedDrawer now = u.refittedDrawer now := by
  rw [h.1]; rfl

theorem movedRecords_booked {u v : LaneUnit} (h : Booked u v) (d : Drawer) (inRun : Bool) :
    v.movedRecords d inRun = u.movedRecords d inRun := by
  rw [h.1]; rfl

theorem drawerRecords_booked {u v : LaneUnit} (h : Booked u v) (now : Word32) : v.drawerRecords now = u.drawerRecords now := by
  rw [h.1]; rfl

theorem booked_reloadDrawer {v : LaneUnit} {s : State} {l : Lane} (h : Booked v (s.lane l)) :
    Booked (v.drawerMoved (v.refittedDrawer s.run.clock) s.inRun) ((s.reloadDrawer l).lane l) := by
  have own := (reloadDrawer_spec s l).1
  rw [refittedDrawer_booked h] at own
  exact (h.drawerMoved _ _).trans own

theorem reloadDrawer_offers {v : LaneUnit} {s : State} {l : Lane} (h : Booked v (s.lane l)) :
    Offers l s (s.reloadDrawer l) (v.movedRecords (v.refittedDrawer s.run.clock) s.inRun ++ v.drawerRecords s.run.clock) := by
  have own := Offers.reloadDrawer l s
  rwa [refittedDrawer_booked h, movedRecords_booked h, drawerRecords_booked h] at own

/-- The records that the delivery of a reload has brought, and the moment and the device state it stands in. -/
structure Delivers (l : Lane) (s : State) (v : LaneUnit) (t : State) (rs : List RecordBody) : Prop where
  booked : Booked v (t.lane l)
  offers : Offers l s t rs
  step : LaneStep (only l) s t

theorem Delivers.inRun {l : Lane} {s t : State} {v : LaneUnit} {rs : List RecordBody} (h : Delivers l s v t rs) : t.inRun = s.inRun :=
  h.step.inRun

theorem delivers_rekeyed (s : State) (l : Lane) (old : LaneSettings) :
    Delivers l s ((s.lane l).rekeyed old)
      (if (s.lane l).enabled = (s.lane l).laneState then ((s.reloadState l).reloadPorts l).reloadKeyboard l old
        else (s.reloadState l).reloadPorts l)
      ((s.lane l).reenableRecords ++ (s.lane l).reenabled.cutRecords ++
        if (s.lane l).enabled = (s.lane l).laneState then (s.lane l).reenabled.portsAfter.reloadImage old else []) := by
  have state := booked_reloadState s l
  have ports : Booked (s.lane l).reenabled.portsAfter (((s.reloadState l).reloadPorts l).lane l) :=
    state.portsAfter.trans (booked_reloadPorts _ l)
  have offers := (Offers.reloadState l s).trans (Offers.reloadPorts l _)
  rw [cutRecords_booked state] at offers
  have step := (LaneStep.reloadState l s).trans (LaneStep.reloadPorts l _)
  unfold LaneUnit.rekeyed
  split
  · obtain ⟨booked, image, keys⟩ := reloadKeyboard_spec ((s.reloadState l).reloadPorts l) l old
    rw [reloadImage_booked ports] at image
    exact ⟨(ports.reloadedKb old).trans booked, offers.trans image, step.trans keys⟩
  · exact ⟨ports, by rw [List.append_nil]; exact offers, step⟩

theorem deliverReload_spec (s : State) (l : Lane) (data : List Byte) :
    let u := (s.lane l).takeSettings data (s.heldDrawer l)
    Booked (u.reloaded (s.lane l).settings s.run.clock s.inRun) ((s.deliverReload l data).lane l) ∧
      Offers l s (s.deliverReload l data) (u.reloadRecords (s.lane l).settings s.run.clock s.inRun) ∧
      LaneStep (only l) (s.modLane l fun u => u.takeSettings data (s.heldDrawer l)) (s.deliverReload l data) := by
  intro u
  let x := s.modLane l fun u => u.takeSettings data (s.heldDrawer l)
  have lane : x.lane l = u := lane_modLane_same ..
  have taken : Offers l s x [] := Offers.modLane rfl rfl
  have rekeyed := delivers_rekeyed x l (s.lane l).settings
  have after : (((x.reloadState l).reloadPorts l).lane l).laneState = u.enabled := by
    have booked := (booked_reloadState x l).portsAfter.trans (booked_reloadPorts _ l)
    rw [booked.1, lane]
    exact (reenabled_fields u).1
  have eq : s.deliverReload l data =
      ((if (x.lane l).enabled = (x.lane l).laneState then ((x.reloadState l).reloadPorts l).reloadKeyboard l (s.lane l).settings
        else (x.reloadState l).reloadPorts l).modLane l LaneUnit.followReader).reloadDrawer l := by
    rw [lane, ← after]; rfl
  rw [eq]
  rw [lane] at rekeyed ⊢
  generalize (if u.enabled = u.laneState then ((x.reloadState l).reloadPorts l).reloadKeyboard l (s.lane l).settings
    else (x.reloadState l).reloadPorts l) = y at rekeyed ⊢
  have refitted : Booked (u.refitted (s.lane l).settings) ((y.modLane l LaneUnit.followReader).lane l) := by
    rw [lane_modLane_same]; exact rekeyed.booked.followReader
  have clock : (y.modLane l LaneUnit.followReader).run.clock = s.run.clock := rekeyed.step.clock
  have inRun : (y.modLane l LaneUnit.followReader).inRun = s.inRun := rekeyed.step.inRun
  have reader : Offers l y (y.modLane l LaneUnit.followReader) [] := Offers.modLane
    (by rw [(followReader_fields _).1]) (by rw [(followReader_fields _).1])
  have drawer := reloadDrawer_offers refitted
  have moved := booked_reloadDrawer refitted
  rw [clock, inRun] at drawer moved
  refine ⟨moved, ?_, rekeyed.step.trans ((LaneStep.modLane (followReader_same _).1 (followReader_same _).2).trans (LaneStep.reloadDrawer l _))⟩
  simpa [LaneUnit.reloadRecords] using taken.trans (rekeyed.offers.trans (reader.trans drawer))

end Sys2Proof.Machine
end

section
/-! PROOFS. The delivery of a reload (R10 to R12, R35 to R37, R58, R77, R87, R89, R94): each part of the lane unit, and the records as the
statement lists them. -/

namespace Sys2Proof.Machine

/-! ## Ports through a change of lane state (R42, R55) -/

theorem portAfter_changed (u : LaneUnit) (new : LaneState) (capture : Bool) (p : Port) (c : PortSettings) (configured : Bool) :
    portAfter ((u.changed new capture).port p) c configured new = portAfter (u.port p) c configured new := by
  have entering : (u.entering new).port p = u.port p := by cases p <;> rfl
  have followed : ∀ w : LaneUnit, ∃ on frame gap mark text damaged tooLong, w.followed p =
      { w.port p with on := on, frame := frame, gap := gap, mark := mark, text := text, damaged := damaged, tooLong := tooLong } := by
    intro w
    unfold LaneUnit.followed
    split
    · exact ⟨_, _, _, _, _, _, _, rfl⟩
    · split
      · exact ⟨_, _, _, _, _, _, _, rfl⟩
      · unfold ScanPort.cut
        split <;> exact ⟨_, _, _, _, _, _, _, rfl⟩
  obtain ⟨on, frame, gap, mark, text, damaged, tooLong, e⟩ := followed (u.entering new)
  rw [changed_port, e, entering]
  unfold portAfter LaneUnit.toned
  have laneState : (u.entering new).laneState = new := rfl
  rw [laneState]
  cases new <;> simp [ScanPort.stopTone]

/-- A receiver that is ON in a dozing lane stays ON when the lane wakes. -/
theorem port_woken {u : LaneUnit} (ok : u.receiversOk) (doze : u.laneState = .doze) (p : Port) :
    (u.changed .active false).port p = u.port p := by
  have entering : (u.entering .active).port p = u.port p := by cases p <;> rfl
  have on : (u.entering .active).receiverOn p = ((u.entering .active).port p).on := by
    rw [entering, (ok p).1, LaneUnit.receiverOn, LaneUnit.receiverOn, doze]
    cases p <;> rfl
  rw [changed_port]
  show (u.entering .active).followed p = u.port p
  rw [LaneUnit.followed, if_pos on, entering]

theorem changeRecords_woken {u : LaneUnit} (ok : u.receiversOk) (doze : u.laneState = .doze) (cause : StateCause) :
    u.changeRecords .active cause = [.laneState .active cause] := by
  have none : u.cutPorts .active = [] := by
    refine List.filter_eq_nil_iff.2 fun p _ => ?_
    have on : { u with laneState := .active }.receiverOn p = (u.port p).on := by
      rw [(ok p).1, LaneUnit.receiverOn, LaneUnit.receiverOn, doze]
      cases p <;> rfl
    rw [on]
    cases (u.port p).on <;> simp
  rw [LaneUnit.changeRecords, none]
  rfl

/-- A lane that takes another state has no frame in assembly left when it is then ACTIVE or DISABLED. -/
theorem changed_frame {u : LaneUnit} {old : LaneUnit} (ok : old.receiversOk) (port : ∀ p, u.port p = old.port p)
    (state : u.laneState = old.laneState) (other : u.enabled ≠ u.laneState) (p : Port) :
    ((u.changed u.enabled (u.enabled == .active)).port p).frame ≠ .assembling := by
  have entering : (u.entering u.enabled).port p = old.port p := by rw [← port p]; cases p <;> rfl
  rw [changed_port, (toned_frame _ _).1, LaneUnit.followed, entering]
  rcases enabled_of_change other with ⟨e, off⟩ | ⟨e, -⟩
  · have silent : (old.port p).on = false := by rw [(ok p).1, LaneUnit.receiverOn, ← state, off]; cases p <;> simp
    have waiting : (old.port p).frame = .waiting := by
      by_contra f
      simp [(ok p).2 f] at silent
    split
    · simp [waiting]
    · split
      · simp [ScanPort.turnOn]
      · simp [ScanPort.turnOff, ScanPort.toWaiting]
  · have called : (u.entering u.enabled).receiverOn p = false := by rw [e, LaneUnit.receiverOn]; simp [LaneUnit.entering]
    rw [called]
    split
    · next off =>
      intro f
      simp [(ok p).2 (by simp [f])] at off
    · simp [ScanPort.turnOff, ScanPort.toWaiting]

/-! ## The lane unit, up to its drawer -/

theorem reenabled_port (u : LaneUnit) (p : Port) (c : PortSettings) :
    portAfter (u.reenabled.port p) c u.configured u.enabled = portAfter (u.port p) c u.configured u.enabled := by
  unfold LaneUnit.reenabled
  split
  · cases p <;> rfl
  · exact portAfter_changed ..

theorem portsAfter_port (u : LaneUnit) (p : Port) :
    u.portsAfter.port p = portAfter (u.port p) (u.portSettings p) u.configured u.laneState := by cases p <;> rfl

/-- A lane unit's keyboard when every part but its drawer has taken the settings in force. -/
theorem rekeyed_eq (u : LaneUnit) (old : LaneSettings) :
    u.rekeyed old = { u.reenabled.portsAfter with
      kb := if u.enabled = u.laneState then u.reloadedKb old else (u.changed u.enabled (u.enabled == .active)).kb } := by
  unfold LaneUnit.rekeyed
  split
  · next same => rw [LaneUnit.reenabled, if_pos same]; rfl
  · next other => rw [LaneUnit.reenabled, if_neg other]; rfl

theorem refitted_fields (u : LaneUnit) (old : LaneSettings) :
    (u.refitted old).laneState = u.enabled ∧ (u.refitted old).configured = u.configured ∧ (u.refitted old).settings = u.settings ∧
      (u.refitted old).drawer = u.drawer ∧ (u.refitted old).idle = u.reenabled.idle ∧
      (u.refitted old).keylock = keylockAfter u.keylock u.settings.settleMs u.readerRuns ∧
      (u.refitted old).kb = (if u.enabled = u.laneState then u.reloadedKb old else (u.changed u.enabled (u.enabled == .active)).kb) ∧
      ∀ p, (u.refitted old).port p = portAfter (u.port p) (u.portSettings p) u.configured u.enabled := by
  obtain ⟨state, configured, settings, drawer, keylock, -⟩ := reenabled_fields u
  have runs : (u.rekeyed old).readerRuns = u.readerRuns := by
    rw [rekeyed_eq]
    show (u.reenabled.configured && (u.reenabled.settings.enable || u.reenabled.settings.drawer.enable)) = _
    rw [configured, settings]; rfl
  have reader := (followReader_fields (u.rekeyed old)).1
  have lock := keylock_followReader (u.rekeyed old)
  rw [runs] at lock
  unfold LaneUnit.refitted
  refine ⟨?_, ?_, ?_, ?_, ?_, ?_, ?_, fun p => ?_⟩
  · rw [reader, rekeyed_eq]; exact state
  · rw [reader, rekeyed_eq]; exact configured
  · rw [reader, rekeyed_eq]; exact settings
  · rw [reader, rekeyed_eq]; exact drawer
  · rw [reader, rekeyed_eq]; rfl
  · rw [lock, rekeyed_eq]
    show keylockAfter u.reenabled.keylock u.reenabled.settings.settleMs _ = _
    rw [keylock, settings]
  · rw [reader, rekeyed_eq]
  · have port : (u.rekeyed old).followReader.port p = u.reenabled.portsAfter.port p := by
      rw [reader, rekeyed_eq]; cases p <;> rfl
    have chosen : u.reenabled.portSettings p = u.portSettings p := by cases p <;> simp only [LaneUnit.portSettings, settings]
    rw [port, portsAfter_port, chosen, configured, state, reenabled_port]

theorem refitted_receiversOk (u : LaneUnit) (old : LaneSettings) : (u.refitted old).receiversOk := by
  obtain ⟨state, configured, settings, -, -, -, -, port⟩ := refitted_fields u old
  intro p
  obtain ⟨on, waits⟩ := portAfter_spec (u.port p) (u.portSettings p) u.configured u.enabled
  have calls : (u.refitted old).receiverOn p = (u.configured && (u.portSettings p).enable && (u.enabled == .active || u.enabled == .doze)) := by
    rw [LaneUnit.receiverOn, state, configured]
    cases p <;> simp only [LaneUnit.portSettings, settings]
  rw [port, calls]
  exact ⟨on, waits⟩

theorem reloadedKb_mode (u : LaneUnit) (old : LaneSettings) : (u.reloadedKb old).mode = u.scanMode := by
  unfold LaneUnit.reloadedKb
  split
  · rfl
  · next same =>
    have same := not_not.1 same
    split
    · exact same.symm
    · exact same.symm
    · next mode =>
      rw [same, mode]
      split
      · rfl
      · rw [← mode]; unfold Keyboard.withSettings; rfl

theorem enabled_doze {u : LaneUnit} (doze : u.enabled = .doze) : u.laneState = .doze := by
  unfold LaneUnit.enabled at doze
  split at doze
  · simp at doze
  · split at doze
    · simp at doze
    · exact doze

/-! ## The lane unit as a whole -/

/-- The drawer's change of condition wakes the lane in the device states that let it (R7, R79). -/
def LaneUnit.reloadWakes (u : LaneUnit) (now : Word32) (inRun : Bool) : Prop :=
  (drawerAfter u.drawer u.settings.drawer u.drawerRuns now).cond ≠ u.drawer.cond ∧ u.enabled = .doze ∧ u.wakesOn .drawer = true ∧
    inRun = true

theorem refittedDrawer_refitted (u : LaneUnit) (old : LaneSettings) (now : Word32) :
    (u.refitted old).refittedDrawer now = drawerAfter u.drawer u.settings.drawer u.drawerRuns now := by
  obtain ⟨-, configured, settings, drawer, -⟩ := refitted_fields u old
  rw [LaneUnit.refittedDrawer, LaneUnit.drawerRuns, drawer, configured, settings]; rfl

theorem reloadWakes_iff (u : LaneUnit) (old : LaneSettings) (now : Word32) (inRun : Bool) :
    ((u.refitted old).refittedDrawer now).cond ≠ (u.refitted old).drawer.cond ∧ (u.refitted old).laneState = .doze ∧
      (u.refitted old).wakesOn .drawer = true ∧ inRun = true ↔ u.reloadWakes now inRun := by
  obtain ⟨state, -, settings, drawer, -⟩ := refitted_fields u old
  rw [refittedDrawer_refitted, drawer, state, LaneUnit.wakesOn, settings]; rfl

theorem reloaded_woken {u : LaneUnit} (old : LaneSettings) {now : Word32} {inRun : Bool} (wakes : u.reloadWakes now inRun) :
    u.reloaded old now inRun = { u.refitted old with
      drawer := drawerAfter u.drawer u.settings.drawer u.drawerRuns now }.changed .active false := by
  rw [LaneUnit.reloaded, LaneUnit.drawerMoved, if_pos ((reloadWakes_iff u old now inRun).2 wakes), refittedDrawer_refitted]

theorem reloaded_still {u : LaneUnit} (old : LaneSettings) {now : Word32} {inRun : Bool} (still : ¬u.reloadWakes now inRun) :
    u.reloaded old now inRun = { u.refitted old with drawer := drawerAfter u.drawer u.settings.drawer u.drawerRuns now } := by
  rw [LaneUnit.reloaded, LaneUnit.drawerMoved, if_neg (mt (reloadWakes_iff u old now inRun).1 still), refittedDrawer_refitted]

theorem reloaded_fields (u : LaneUnit) (old : LaneSettings) (now : Word32) (inRun : Bool) :
    (u.reloaded old now inRun).configured = u.configured ∧ (u.reloaded old now inRun).settings = u.settings ∧
      (u.reloaded old now inRun).drawer = drawerAfter u.drawer u.settings.drawer u.drawerRuns now ∧
      (u.reloaded old now inRun).keylock = keylockAfter u.keylock u.settings.settleMs u.readerRuns ∧
      ∀ p, (u.reloaded old now inRun).port p = portAfter (u.port p) (u.portSettings p) u.configured u.enabled := by
  obtain ⟨state, configured, settings, -, -, keylock, -, port⟩ := refitted_fields u old
  by_cases wakes : u.reloadWakes now inRun
  · rw [reloaded_woken old wakes]
    obtain ⟨-, -, -, lock, drawer, -, conf, sets⟩ :=
      changed_fields { u.refitted old with drawer := drawerAfter u.drawer u.settings.drawer u.drawerRuns now } .active false
    refine ⟨conf.trans configured, sets.trans settings, drawer, lock.trans keylock, fun p => ?_⟩
    have ok : ({ u.refitted old with drawer := drawerAfter u.drawer u.settings.drawer u.drawerRuns now } : LaneUnit).receiversOk :=
      refitted_receiversOk u old
    rw [port_woken ok (state.trans wakes.2.1), ← port p]
    cases p <;> rfl
  · rw [reloaded_still old wakes]
    refine ⟨configured, settings, rfl, keylock, fun p => ?_⟩
    rw [← port p]
    cases p <;> rfl

/-! ## The records in the order of R94 -/

theorem reenable_cut_records {u old : LaneUnit} (ok : old.receiversOk) (port : ∀ p, u.port p = old.port p)
    (state : u.laneState = old.laneState) :
    u.reenableRecords ++ u.reenabled.cutRecords =
      (if u.enabled = u.laneState then [] else [.laneState u.enabled .settings]) ++ u.cutRecords := by
  unfold LaneUnit.reenableRecords LaneUnit.reenabled
  split
  · rfl
  · next other =>
    have frame := changed_frame ok port state other
    have none : (u.changed u.enabled (u.enabled == .active)).cutRecords = [] := by
      have a : (u.changed u.enabled (u.enabled == .active)).portA.frame ≠ .assembling := frame .a
      have b : (u.changed u.enabled (u.enabled == .active)).portB.frame ≠ .assembling := frame .b
      rw [LaneUnit.cutRecords, if_neg a, if_neg b]; rfl
    have cuts (p : Port) : ((u.port p).on && !{ u with laneState := u.enabled }.receiverOn p && decide ((u.port p).frame = .assembling)) =
        decide ((u.port p).frame = .assembling) := by
      rw [port p]
      by_cases f : (old.port p).frame = .assembling
      · have on := (ok p).2 (by rw [f]; decide)
        rcases enabled_of_change other with ⟨-, off⟩ | ⟨e, -⟩
        · rw [(ok p).1, LaneUnit.receiverOn, ← state, off] at on
          simp at on
        · have called : { u with laneState := u.enabled }.receiverOn p = false := by rw [e, LaneUnit.receiverOn]; simp
          rw [called, on, f]; rfl
      · simp [f]
    have ports : u.cutPorts u.enabled = [Port.a, Port.b].filter fun p => decide ((u.port p).frame = .assembling) :=
      congrArg (fun f => [Port.a, Port.b].filter f) (funext cuts)
    rw [none, List.append_nil, LaneUnit.changeRecords, ports, LaneUnit.cutRecords]
    have a : (u.port .a) = u.portA := rfl
    have b : (u.port .b) = u.portB := rfl
    by_cases fa : u.portA.frame = .assembling <;> by_cases fb : u.portB.frame = .assembling <;> simp [a, b, fa, fb]

theorem refitted_movedRecords {u : LaneUnit} (old : LaneSettings) {now : Word32} {inRun wakes : Bool}
    (iff : wakes = true ↔ u.reloadWakes now inRun) :
    (u.refitted old).movedRecords ((u.refitted old).refittedDrawer now) inRun =
      if wakes then [.laneState .active (.wake .drawer)] else [] := by
  rw [LaneUnit.movedRecords]
  by_cases woken : wakes = true
  · rw [if_pos ((reloadWakes_iff ..).2 (iff.1 woken)), if_pos woken,
      changeRecords_woken (refitted_receiversOk u old) ((refitted_fields u old).1.trans (iff.1 woken).2.1)]
  · rw [if_neg (mt (reloadWakes_iff ..).1 (mt iff.2 woken)), if_neg woken]

theorem refitted_drawerRecords (u : LaneUnit) (old : LaneSettings) (now : Word32) :
    (u.refitted old).drawerRecords now = u.drawerRecords now := by
  obtain ⟨-, configured, settings, drawer, -⟩ := refitted_fields u old
  unfold LaneUnit.drawerRecords LaneUnit.drawerTells LaneUnit.refittedDrawer LaneUnit.drawerRuns
  rw [configured, settings, drawer]

end Sys2Proof.Machine
end

section
/-! PROOFS. What a reload delivers to the parts of its lane (O20), and a reload from its order to its answer (O19). -/

namespace Sys2Proof.Machine

/-! ## The keyboard of the lane (R10, R35 to R37) -/

theorem reloaded_kb_woken {u : LaneUnit} (old : LaneSettings) {now : Word32} {inRun : Bool} (wakes : u.reloadWakes now inRun)
    (configured : u.configured = true) : (u.reloaded old now inRun).kb = Keyboard.entered .scanning u.settings.pass := by
  obtain ⟨state, conf, settings, -, -, -, kb, -⟩ := refitted_fields u old
  have doze := wakes.2.1
  rw [if_pos (doze.trans (enabled_doze doze).symm)] at kb
  have mode : ({ u.refitted old with laneState := .active } : LaneUnit).scanMode = .scanning := by
    simp [LaneUnit.scanMode, conf, configured]
  have other : ScanMode.scanning ≠ (u.refitted old).kb.mode := by
    rw [kb, reloadedKb_mode, LaneUnit.scanMode, configured, enabled_doze doze]
    cases u.wakesOn .key <;> decide
  rw [reloaded_woken old wakes, changed_kb, if_neg (by decide)]
  show (if ({ u.refitted old with laneState := .active } : LaneUnit).scanMode = (u.refitted old).kb.mode then _
    else Keyboard.entered ({ u.refitted old with laneState := .active } : LaneUnit).scanMode (u.refitted old).settings.pass) = _
  rw [mode, if_neg other, settings]

theorem reloaded_kb_still {u : LaneUnit} (old : LaneSettings) {now : Word32} {inRun : Bool} (still : ¬u.reloadWakes now inRun) :
    (u.reloaded old now inRun).kb =
      if u.enabled = u.laneState then u.reloadedKb old else (u.changed u.enabled (u.enabled == .active)).kb := by
  rw [reloaded_still old still]
  exact (refitted_fields u old).2.2.2.2.2.2.1

theorem changed_enabled_kb {u : LaneUnit} (st : LaneState) :
    (st = .active → (u.changed st (st == .active)).kb =
      { Keyboard.entered .scanning u.settings.pass with capture := some u.settings.debounce }) ∧
    (st = .disabled → (u.changed st (st == .active)).kb =
      if u.kb.mode = .idle then u.kb else Keyboard.entered .idle u.settings.pass) := by
  refine ⟨fun e => ?_, fun e => ?_⟩
  · rw [changed_kb, e]; rfl
  · rw [changed_kb, e, if_neg (by decide), scanMode_disabled _ rfl]
    simp only [eq_comm]

/-- The mode that the lane enable and the wake mask call for. -/
theorem scanMode_eq (u : LaneUnit) : u.scanMode = match u.laneState with
    | .active => if u.configured then .scanning else .idle
    | .doze => if u.configured = true ∧ u.settings.wake.getLsbD 0 = true then .anyKey else .idle
    | .off | .disabled => .idle := by
  unfold LaneUnit.scanMode
  cases u.configured <;> cases u.laneState <;> simp [LaneUnit.wakesOn, WakeSource.index]

theorem reloadedKb_cases (u : LaneUnit) (old : LaneSettings) :
    (u.kb.mode ≠ u.scanMode → u.reloadedKb old = Keyboard.entered u.scanMode u.settings.pass) ∧
    (u.kb.mode = u.scanMode → u.scanMode = .idle → u.reloadedKb old = u.kb) ∧
    (u.kb.mode = u.scanMode → u.scanMode = .anyKey →
      u.reloadedKb old = { u.kb with anyStage := .waitClear, anyCount := 0, detected := false }) ∧
    (u.kb.mode = u.scanMode → u.scanMode = .scanning → u.kb.capture ≠ none →
      u.reloadedKb old = { Keyboard.entered .scanning u.settings.pass with capture := some u.settings.debounce }) ∧
    (u.kb.mode = u.scanMode → u.scanMode = .scanning → u.kb.capture = none → u.reloadedKb old = u.kb.withSettings old u.settings) := by
  unfold LaneUnit.reloadedKb
  refine ⟨fun other => if_pos other.symm, ?_, ?_, ?_, ?_⟩
  all_goals
    intro same mode
    rw [if_neg (not_not.2 same.symm), same, mode]
  · rfl
  · exact fun capture => if_pos (Option.isSome_iff_ne_none.2 capture)
  · intro none
    rw [none]
    rfl

/-! ## The idle timer (R4) -/

theorem enabled_active {u : LaneUnit} (active : u.enabled = .active) : u.settings.enable = true := by
  unfold LaneUnit.enabled at active
  split at active
  · simp at active
  · next on => simpa using on

theorem reloaded_idle {u : LaneUnit} (old : LaneSettings) (now : Word32) (inRun : Bool) :
    ((u.reloaded old now inRun).laneState = .active → (u.reloaded old now inRun).idle = u.settings.idlePeriod) ∧
      (u.enabled = .disabled → u.laneState ≠ .disabled → (u.reloaded old now inRun).idle = none) := by
  obtain ⟨state, -, settings, -, idle, -⟩ := refitted_fields u old
  by_cases wakes : u.reloadWakes now inRun
  · rw [reloaded_woken old wakes]
    refine ⟨fun _ => ?_, fun off => ?_⟩
    · rw [(changed_fields _ _ _).2.1, if_pos rfl]
      exact congrArg LaneSettings.idlePeriod settings
    · rw [wakes.2.1] at off
      cases off
  · rw [reloaded_still old wakes]
    show ((u.refitted old).laneState = .active → (u.refitted old).idle = _) ∧ (_ → _ → (u.refitted old).idle = none)
    rw [state, idle, LaneUnit.reenabled]
    refine ⟨fun active => ?_, fun off other => ?_⟩
    · split
      · next same => exact if_pos ⟨enabled_active active, same.symm.trans active⟩
      · rw [(changed_fields _ _ _).2.1, if_pos active]
    · rw [if_neg (by rw [off]; exact other.symm), (changed_fields _ _ _).2.1, if_neg (by rw [off]; decide)]

/-! ## The KEY_IMAGE(RELOAD) record (R36) -/

theorem reloadImage_eq (u : LaneUnit) (old : LaneSettings) :
    u.reloadImage old = if u.scanMode = .scanning ∧ u.kb.mode = .scanning ∧ u.kb.capture = none ∧
        (u.reloadedKb old).image ≠ u.kb.image then
      [{ u with kb := u.reloadedKb old }.imageRecord .reload] else [] := by
  unfold LaneUnit.reloadImage
  by_cases scans : u.scanMode = .scanning ∧ u.kb.mode = .scanning ∧ u.kb.capture = none
  · obtain ⟨mode, scanning, none⟩ := scans
    have kb := (reloadedKb_cases u old).2.2.2.2 (scanning.trans mode.symm) mode none
    have image : (u.kb.withSettings old u.settings).image = (u.kb.image.filter u.settings.usesKey).take u.settings.rollover := by
      unfold Keyboard.withSettings; rfl
    have moved : u.kb.disturbed u.settings = true ↔ (u.reloadedKb old).image ≠ u.kb.image := by
      rw [kb, image, Keyboard.disturbed, bne_iff_ne]; exact ne_comm
    by_cases m : (u.reloadedKb old).image ≠ u.kb.image
    · rw [if_pos ⟨mode.trans scanning.symm, scanning, by rw [none]; rfl, moved.2 m⟩, if_pos ⟨mode, scanning, none, m⟩, kb]
    · rw [if_neg fun h => m (moved.1 h.2.2.2), if_neg fun h => m h.2.2.2]
  · rw [if_neg fun h => scans ⟨h.1.trans h.2.1, h.2.1, by simpa using h.2.2.1⟩, if_neg fun h => scans ⟨h.1, h.2.1, h.2.2.1⟩]

theorem reloadImage_reenabled {u : LaneUnit} (old : LaneSettings) (same : u.enabled = u.laneState) :
    u.reenabled.portsAfter.reloadImage old = u.reloadImage old := by
  rw [LaneUnit.reenabled, if_pos same]; rfl

/-! ## The read of the reload -/

theorem purpose_of_granted {s : State} {g : Grant} {p : Purpose} (granted : s.dma.granted = some g) (purpose : g.req.purpose = p) :
    s.purpose = some p := by
  rw [State.purpose, granted]; exact congrArg some purpose

theorem complete_parts {s : State} {g : Grant} (granted : s.dma.granted = some g) :
    ∃ hostMem dma, s.complete = { s with hostMem := hostMem, dma := dma } := ⟨_, _, complete_eq granted⟩

theorem exec_reloadRead {s : State} {g : Grant} {l : Lane} (data : List Byte) (granted : s.dma.granted = some g)
    (purpose : g.req.purpose = .reloadRead l) :
    exec (.reloadSettingsReadComplete data) s = .next (s.complete.reloadRead l data).settle := by
  show execReloadSettingsReadComplete data s = _
  unfold execReloadSettingsReadComplete
  rw [purpose_of_granted granted purpose]

theorem reloadRead_parts (s : State) (l : Lane) (data : List Byte) :
    s.reloadRead l data = { s.deliverReload l data with
      unit.reload := some (.echo l (reloadAnswer (s.lane l) ((s.deliverReload l data).lane l))) } := rfl

theorem Offers.marks {s t : State} {l : Lane} {rs : List RecordBody} (h : Offers l s t rs) (stage : Reload) :
    Offers l s { t with unit.reload := some stage } rs := by
  have quiet : Offers l t { t with unit.reload := some stage } [] := Offers.quiet rfl rfl rfl rfl rfl rfl
  simpa using h.trans quiet

/-- The read of a reload delivers the settings to its lane (R147). -/
theorem reloadRead_spec {s : State} {g : Grant} {l : Lane} (data : List Byte) (granted : s.dma.granted = some g)
    (purpose : g.req.purpose = .reloadRead l) :
    ∃ m, exec (.reloadSettingsReadComplete data) s = .next m.settle ∧
      Booked (((s.lane l).takeSettings data (s.heldDrawer l)).reloaded (s.lane l).settings s.run.clock s.inRun) (m.lane l) ∧
      Offers l s m (((s.lane l).takeSettings data (s.heldDrawer l)).reloadRecords (s.lane l).settings s.run.clock s.inRun) ∧
      m.journal = s.journal ∧ m.walker = s.walker ∧ (∀ k, k ≠ l → m.lane k = s.lane k) ∧
      m.unit = { s.unit with reload := some (.echo l (reloadAnswer (s.lane l) (m.lane l))) } ∧
      (m.lane l).configured = (s.lane l).configured ∧ (m.lane l).settings = (loadLane data (s.heldDrawer l)).1 ∧
      (m.lane l).clamped = (loadLane data (s.heldDrawer l)).2 ∧ (m.lane l).held = (s.heldDrawer l).isSome ∧
      (m.lane l).store = some (loadLane data (s.heldDrawer l)).1.drawer := by
  have done := exec_reloadRead data granted purpose
  obtain ⟨hostMem, dma, complete⟩ := complete_parts granted
  refine ⟨_, done, ?_⟩
  have lane : s.complete.lane l = s.lane l := by rw [complete]; rfl
  have held : s.complete.heldDrawer l = s.heldDrawer l := by rw [complete]; rfl
  have clock : s.complete.run.clock = s.run.clock := by rw [complete]
  have inRun : s.complete.inRun = s.inRun := by rw [complete]; rfl
  have start : Offers l s s.complete [] := by rw [complete]; exact Offers.quiet rfl rfl rfl rfl rfl rfl
  obtain ⟨booked, offers, step⟩ := deliverReload_spec s.complete l data
  rw [lane, held, clock, inRun] at booked offers
  have settings := step.settings l
  have others (k : Lane) (other : k ≠ l) := step.others k other
  have journal := step.journal
  have walker := step.walker
  have unit := step.unit
  simp only [lane_modLane_same, held, lane] at settings
  simp only [lane_modLane] at others
  rw [reloadRead_parts, lane]
  generalize s.complete.deliverReload l data = m at *
  refine ⟨booked, by simpa using start.trans (offers.marks _), ?_, ?_, fun k other => ?_, ?_, settings⟩
  · exact journal.trans (by rw [complete]; rfl)
  · exact walker.trans (by rw [complete]; rfl)
  · refine (others k other).trans ?_
    rw [if_neg other, complete]; rfl
  · have kept : m.unit = s.unit := unit.trans (by rw [complete]; rfl)
    rw [← kept]; rfl

/-- Settles O20: each clause reads one part of `reloaded`, and the records are those of `reloadRecords` part by part. -/
theorem reloadDelivery : Obligations.ReloadDelivery := by
  unfold Obligations.ReloadDelivery
  intro s g l data granted purpose u c st mode runs tells ports
  let w := u.takeSettings data (s.heldDrawer l)
  let inRun := s.inRun
  obtain ⟨m, done, booked, offers, -⟩ := reloadRead_spec data granted purpose
  refine ⟨m, _, done, settle_frame m, ?_⟩
  intro v wakes image
  have booked : Booked (w.reloaded u.settings s.run.clock inRun) v := booked
  obtain ⟨-, -, drawer, keylock, port⟩ := reloaded_fields w u.settings s.run.clock inRun
  have vdrawer : v.drawer = drawerAfter u.drawer c.drawer runs s.run.clock := by rw [booked.1]; exact drawer
  have enabled : w.enabled = st := rfl
  have scan : st = u.laneState → w.scanMode = mode := fun same => by
    rw [scanMode_eq, show w.laneState = st from same.symm]; rfl
  have wakes_iff : wakes = true ↔ w.reloadWakes s.run.clock inRun := by
    rw [decide_eq_true_iff, vdrawer, LaneUnit.reloadWakes, inRun_iff]
    exact ⟨fun ⟨a, b, c, d⟩ => ⟨b, a, c, d⟩, fun ⟨a, b, c, d⟩ => ⟨b, a, c, d⟩⟩
  have kb : v.kb = (w.reloaded u.settings s.run.clock inRun).kb := by rw [booked.1]
  have still (h : wakes = false) : v.kb = if st = u.laneState then w.reloadedKb u.settings else (w.changed st (st == .active)).kb :=
    kb.trans (reloaded_kb_still _ (by rw [← wakes_iff, h]; decide))
  have asleep (h : st ≠ .doze) : wakes = false := decide_eq_false fun x => h x.1
  have changedKb := changed_enabled_kb (u := w) st
  have cases := reloadedKb_cases w u.settings
  refine ⟨?_, ?_, ?_, fun p => ?_, vdrawer, ?_, fun other active => ?_, fun other off => ?_, fun woken configured => ?_,
    fun same h => ?_, fun roomy configured ok => ?_⟩
  · rw [booked.1]
    show (w.reloaded u.settings s.run.clock inRun).laneState = _
    by_cases h : w.reloadWakes s.run.clock inRun
    · rw [reloaded_woken _ h, (changed_fields _ _ _).1, if_pos (wakes_iff.2 h)]
    · rw [reloaded_still _ h, if_neg (mt wakes_iff.1 h)]
      exact (refitted_fields w u.settings).1
  · rw [booked.1]
    exact (reloaded_idle (u := w) u.settings s.run.clock inRun).1
  · rw [booked.1]
    exact (reloaded_idle (u := w) u.settings s.run.clock inRun).2
  · rw [port_booked booked, port]
    cases p <;> rfl
  · rw [booked.1]; exact keylock
  · rw [still (asleep (by rw [active]; decide)), if_neg other]
    exact changedKb.1 active
  · rw [still (asleep (by rw [off]; decide)), if_neg other]
    exact changedKb.2 off
  · exact kb.trans (reloaded_kb_woken _ (wakes_iff.1 woken) configured)
  · rw [still h, if_pos same]
    rw [scan same] at cases
    obtain ⟨enters, idle, anyKey, capture, goesOn⟩ := cases
    refine ⟨enters, idle, anyKey, capture, fun a b none => ?_⟩
    rw [goesOn a b none]
    exact keysRefitted_withSettings ..
  · have imageRecord : (if w.enabled = w.laneState then w.reenabled.portsAfter.reloadImage u.settings else []) =
        if image then [v.imageRecord .reload] else [] := by
      by_cases same : st = u.laneState
      · rw [if_pos (show w.enabled = w.laneState from same), reloadImage_reenabled (u := w) _ same, reloadImage_eq, scan same]
        by_cases scans : mode = .scanning
        · have active : st ≠ .doze := fun doze => by simp [mode, doze] at scans; split at scans <;> simp at scans
          have vkb := still (asleep active)
          rw [if_pos same] at vkb
          have record : v.imageRecord .reload = { w with kb := w.reloadedKb u.settings }.imageRecord .reload := by
            rw [LaneUnit.imageRecord, vkb]; rfl
          simp only [image, vkb, record, same, scans, true_and, decide_eq_true_eq]
          rfl
        · rw [if_neg fun h => scans h.1, if_neg fun h => scans (of_decide_eq_true h).2.1]
      · rw [if_neg (show ¬w.enabled = w.laneState from same), if_neg fun h => same (of_decide_eq_true h).1]
    have drawerRecord : w.drawerRecords s.run.clock =
        if tells then [.drawer v.drawer.cond u.drawer.cond .settings v.drawer.latch v.drawer.ajarFault 0] else [] := by
      rw [vdrawer]; rfl
    have cuts := reenable_cut_records (u := w) ok (fun p => by cases p <;> rfl) rfl
    have records := LaneUnit.reloadRecords.eq_1 w u.settings s.run.clock inRun
    rw [imageRecord, cuts, refitted_movedRecords _ wakes_iff, refitted_drawerRecords, drawerRecord, LaneUnit.cutRecords] at records
    have makes := offers.makes
    rw [show ((s.lane l).takeSettings data (s.heldDrawer l)).reloadRecords (s.lane l).settings s.run.clock s.inRun = _ from records] at makes
    have few {p : Prop} [Decidable p] (b : RecordBody) : (if p then [b] else []).length ≤ 1 := by split <;> simp
    have short : (if w.enabled = w.laneState then [] else [RecordBody.laneState w.enabled .settings]).length ≤ 1 := by
      split <;> simp
    have produced := makes (roomy.room.mono (by
      simp only [List.length_append]
      have a := few (p := w.portA.frame = .assembling) (.labelRefused .a (.cut w.portA.text.length))
      have b := few (p := w.portB.frame = .assembling) (.labelRefused .b (.cut w.portB.text.length))
      have c := few (p := image = true) (v.imageRecord .reload)
      have d := few (p := wakes = true) (.laneState .active (.wake .drawer))
      have e := few (p := tells = true) (.drawer v.drawer.cond u.drawer.cond .settings v.drawer.latch v.drawer.ajarFault 0)
      omega))
    rw [← List.append_assoc] at produced
    exact produced

end Sys2Proof.Machine
end

section
/-! PROOFS. POLICY_LOCK, and a LANE_RELOAD from the order to its answer (R147, R151, R160). -/

namespace Sys2Proof.Machine

/-! ## The settings unit at the end of an event of a run (R164) -/

theorem pumpDrain_busy (s : State) {v : Requester} (other : v ≠ .journal) : s.pumpDrain.dma.busy v = s.dma.busy v := by
  by_cases states : s.drained = true ∧ (s.journal.state = .starved ∨ s.journal.state = .broken)
  · rw [pumpDrain_halts states.1 states.2, haltJournal_dma]
  · by_cases free : s.drained = true ∧ ∃ page, s.pageFree page
    · obtain ⟨ends, page, free⟩ := free
      rw [pumpDrain_free ends free]
      split
      · rw [State.releasePage, haltJournal_dma]
      · rw [beginClose_eq]
        cases v
        · exact absurd rfl other
        · rfl
        · rfl
    · rw [pumpDrain_idle]
      by_cases ends : s.drained = true
      · refine .inr ⟨fun e => states ⟨ends, .inl e⟩, fun e => states ⟨ends, .inr e⟩, fun page f => free ⟨ends, page, f⟩⟩
      · exact .inl (by simpa using ends)

/-- At the end of an event of a run an idle settings unit with a reload to read asks for the record. -/
theorem settle_reload {m : State} {l : Lane} (run : m.run.device = .running ∨ m.run.device = .stopping)
    (reload : m.unit.reload = some (.read l)) (idle : m.dma.busy .settings = false) :
    m.settle.asks .settings (readRequest (.reloadRead l) (laneRecordOffset l) 128) := by
  refine asks_grant ?_
  have start : m.pumpRecord.pumpDrain.dma.busy .settings = false := by
    rw [pumpDrain_busy _ (by decide), pumpRecord_busy _ (by decide), idle]
  have unit : m.pumpRecord.pumpDrain.unit.reload = some (.read l) := by
    rw [(pumpDrain_frame _).unit, pumpRecord_unit]; exact reload
  have device : m.pumpRecord.pumpDrain.run.device = .running ∨ m.pumpRecord.pumpDrain.run.device = .stopping ∨
      m.pumpRecord.pumpDrain.run.device = .stopped := by
    rcases (pumpDrain_frame m.pumpRecord).run with e | ⟨-, e⟩
    · rw [e, (QuietFrame.pumpRecord m).run]
      exact run.elim .inl fun h => .inr (.inl h)
    · rw [e]; exact .inr (.inr rfl)
  have pump : m.pumpRecord.pumpDrain.pumpRun = m.pumpRecord.pumpDrain.request .settings
      (readRequest (.reloadRead l) (laneRecordOffset l) 128) := by rw [State.pumpRun, unit]
  rw [State.pumpSettings, start]
  rcases device with e | e | e <;> rw [e] <;> simp only [Bool.false_eq_true, if_false, pump] <;> exact asks_request _ _ _

/-! ## What new settings keep (R12, R95) -/

theorem drawerAfter_latch (d : Drawer) (c : DrawerSettings) (runs : Bool) (now : Word32) :
    (drawerAfter d c runs now).latch = d.latch ∧ (drawerAfter d c runs now).history = d.history ∧
      (drawerAfter d c runs now).rawOpen = d.rawOpen := by
  cases running : d.running <;> cases runs
  · simp only [drawerAfter, running, and_self]
  · simp only [drawerAfter, running]
    split <;> exact ⟨rfl, rfl, rfl⟩
  · simp only [drawerAfter, running, and_self]
  · rw [drawerAfter_goesOn c now running]
    dsimp only
    split
    · split <;> exact ⟨rfl, rfl, rfl⟩
    · exact ⟨rfl, rfl, rfl⟩

theorem keylockAfter_position (k : Keylock) (settleMs : Nat) (runs : Bool) : (keylockAfter k settleMs runs).position = k.position := by
  unfold keylockAfter
  split
  · split
    · split <;> rfl
    · rfl
  · rfl
  · rfl

/-! ## The states of the lane -/

theorem reloaded_laneState (u : LaneUnit) (old : LaneSettings) (now : Word32) (inRun : Bool) :
    (u.reloadWakes now inRun → (u.reloaded old now inRun).laneState = .active) ∧
      (¬u.reloadWakes now inRun → (u.reloaded old now inRun).laneState = u.enabled) := by
  refine ⟨fun wakes => ?_, fun still => ?_⟩
  · rw [reloaded_woken old wakes]; exact (changed_fields _ _ _).1
  · rw [reloaded_still old still]; exact (refitted_fields u old).1

/-! ## The echo -/

theorem exec_reloadEcho {s : State} {g : Grant} {l : Lane} (granted : s.dma.granted = some g) (purpose : g.req.purpose = .reloadEcho l) :
    exec .reloadEchoWriteComplete s = .next s.complete.echoWritten.settle := by
  show execReloadEchoWriteComplete s = _
  unfold execReloadEchoWriteComplete
  rw [purpose_of_granted granted purpose]

theorem answer_eq {s : State} {sl : Slip} (current : s.walker.current = some sl) (a : Answer) :
    s.answer a = { s with walker.state := .working, walker.stage := .body a }.request .walker
      (writeRequest .slipBodyWrite (sl.offset + 0x1C) (a.body s.run.clock)) := by
  rw [State.answer, current]

theorem echoWritten_eq {s : State} {l : Lane} {a : Answer} {sl : Slip} (reload : s.unit.reload = some (.echo l a))
    (current : s.walker.current = some sl) :
    s.echoWritten = { s with unit.reload := none, walker.state := .working, walker.stage := .body a }.request .walker
      (writeRequest .slipBodyWrite (sl.offset + 0x1C) (a.body s.run.clock)) := by
  unfold State.echoWritten
  split
  · next a' h =>
    rw [reload] at h
    cases h
    exact answer_eq (s := { s with unit.reload := none }) current a
  · next h => exact absurd reload (h l a)

theorem exec_policyLock (s : State) : exec .policyLock s = s.taking .policyLock State.takePolicyLock := rfl

theorem exec_laneReload (l : Lane) (s : State) : exec (.laneReload l) s = s.taking (.laneReload l) fun s => s.takeLaneReload l := rfl

theorem taking_eq {s : State} {o : Order} {sl : Slip} (hands : s.hands o sl) (take : State → State) :
    s.taking o take = .next (take s).settle := by
  rw [State.taking, if_pos (hands_handed hands)]

/-- Settles O19: the order by `settle_reload`, the read by `reloadRead_spec`, the echo by the answer it carries. -/
theorem reloadSteps : Obligations.ReloadSteps := by
  unfold Obligations.ReloadSteps
  refine ⟨fun s sl => ⟨fun l hands => ?_, fun hands => ?_⟩, fun s g l data granted purpose => ?_,
    fun s g l a sl granted purpose reload current => ?_⟩
  · refine ⟨_, _, (exec_laneReload l s).trans (taking_eq hands _), settle_frame _, rfl, fun idle run => ?_⟩
    exact settle_reload run rfl idle
  · refine answeredBy_of_taking (exec_policyLock s) hands ?_ rfl rfl
    cases lock : s.unit.policyLock <;> simp [State.takePolicyLock, lock]
  · obtain ⟨m, done, booked, -, journal, walker, others, unit, configured, settings, clamped, held, store⟩ :=
      reloadRead_spec data granted purpose
    let w := (s.lane l).takeSettings data (s.heldDrawer l)
    obtain ⟨-, -, drawer, keylock, -⟩ := reloaded_fields w (s.lane l).settings s.run.clock s.inRun
    obtain ⟨woken, still⟩ := reloaded_laneState w (s.lane l).settings s.run.clock s.inRun
    have state : (m.lane l).laneState = (w.reloaded (s.lane l).settings s.run.clock s.inRun).laneState := by rw [booked.1]
    have vdrawer : (m.lane l).drawer = _ := Eq.trans (by rw [booked.1]) drawer
    have vkeylock : (m.lane l).keylock = _ := Eq.trans (by rw [booked.1]) keylock
    have enabled : w.enabled = if (loadLane data (s.heldDrawer l)).1.enable = false then .disabled
      else if (s.lane l).laneState = .disabled then .active else (s.lane l).laneState := rfl
    have stays (other : w.enabled ≠ .doze) : (m.lane l).laneState = w.enabled :=
      state.trans (still fun wakes => other wakes.2.1)
    refine ⟨m, _, done, settle_frame m, settings, clamped, held, store, configured, fun off => ?_, fun on old => ?_, fun on old => ?_,
      fun on old => ?_, ?_, ?_, ?_, others, ?_, journal, walker⟩
    · have e : w.enabled = .disabled := if_pos off
      rw [stays (by rw [e]; decide), e]
    · have e : w.enabled = .active := by
        rw [enabled, if_neg (by rw [State.heldDrawer, on]; decide)]
        rcases old with old | old <;> rw [old] <;> rfl
      rw [stays (by rw [e]; decide), e]
    · have e : w.enabled = .off := by
        rw [enabled, if_neg (by rw [State.heldDrawer, on]; decide), old]; rfl
      rw [stays (by rw [e]; decide), e]
    · by_cases wakes : w.reloadWakes s.run.clock s.inRun
      · refine .inr ⟨state.trans (woken wakes), ?_, wakes.2.2.1⟩
        rw [vdrawer]; exact wakes.1
      · refine .inl ((state.trans (still wakes)).trans ?_)
        rw [enabled, if_neg (by rw [State.heldDrawer, on]; decide), old]; rfl
    · rw [vdrawer]; exact (drawerAfter_latch ..).1
    · rw [vdrawer]; exact (drawerAfter_latch ..).2.1
    · rw [vkeylock]; exact keylockAfter_position ..
    · rw [unit, reloadAnswer, clamped, held]; rfl
  · have done := exec_reloadEcho granted purpose
    obtain ⟨hostMem, dma, complete⟩ := complete_parts granted
    rw [complete, echoWritten_eq (s := { s with hostMem := hostMem, dma := dma }) (sl := sl) reload current] at done
    exact ⟨_, _, done, settle_frame _, rfl, asks_settle (asks_request _ _ _)⟩

end Sys2Proof.Machine
end

section
/-! PROOFS. The read of a lane record and the delivery of LOADING (R1, R12, R38, R54, R58, R77, R87, R95, R155): run control and the blocks
(O17), and each part of a configured lane (O21). -/

namespace Sys2Proof.Machine

/-! ## Parts of a lane that counts and records leave alone -/

theorem kb_booked {u v : LaneUnit} (h : Booked u v) : v.kb = u.kb := by rw [h.1]

theorem keylock_booked {u v : LaneUnit} (h : Booked u v) : v.keylock = u.keylock := by rw [h.1]

theorem drawer_booked {u v : LaneUnit} (h : Booked u v) : v.drawer = u.drawer := by rw [h.1]

/-! ## A lane unit configured -/

/-- The lane unit with its settings, its lane state and what a run starts afresh, before its parts follow (R1, R4, R74, R115). -/
def LaneUnit.configuring (u : LaneUnit) (data : List Byte) (held : Option DrawerSettings) : LaneUnit :=
  { u.takeSettings data held with
    configured := true
    laneState := if (loadLane data held).1.enable then .active else .disabled
    idle := if (loadLane data held).1.enable then (loadLane data held).1.idlePeriod else none
    acceptor := .reset
    seq := 0
    rewrite := true }

theorem configure_eq (u : LaneUnit) (data : List Byte) (held : Option DrawerSettings) :
    u.configure data held = ((u.configuring data held).loadKeyboard u.settings).followReader := rfl

theorem configure_parts (u : LaneUnit) (data : List Byte) (held : Option DrawerSettings) :
    (u.configure data held).kb = ((u.configuring data held).loadKeyboard u.settings).kb ∧
      (u.configure data held).keylock = keylockAfter u.keylock (loadLane data held).1.settleMs
        ((loadLane data held).1.enable || (loadLane data held).1.drawer.enable) := by
  rw [configure_eq]
  refine ⟨by rw [(followReader_fields _).1], ?_⟩
  rw [keylock_followReader, loadKeyboard_fields]
  rfl

theorem configuring_scanMode (u : LaneUnit) (data : List Byte) (held : Option DrawerSettings) :
    (u.configuring data held).scanMode = if (loadLane data held).1.enable then .scanning else .idle := by
  rw [scanMode_eq]
  show (match (if (loadLane data held).1.enable then LaneState.active else .disabled) with
    | .active => _ | .doze => _ | .off | .disabled => ScanMode.idle) = _
  cases (loadLane data held).1.enable <;> rfl

/-- The keyboard scanner of a lane configured at LOADING (R18, R38). -/
theorem configure_kb (u : LaneUnit) (data : List Byte) (held : Option DrawerSettings) :
    ((loadLane data held).1.enable = false → (u.configure data held).kb =
      if u.kb.mode = .idle then u.kb else Keyboard.entered .idle (loadLane data held).1.pass) ∧
    ((loadLane data held).1.enable = true → u.kb.mode ≠ .scanning →
      (u.configure data held).kb = Keyboard.entered .scanning (loadLane data held).1.pass) ∧
    ((loadLane data held).1.enable = true → u.kb.mode = .scanning →
      (u.configure data held).kb = u.kb.withSettings u.settings (loadLane data held).1) := by
  have mode := configuring_scanMode u data held
  rw [(configure_parts u data held).1, LaneUnit.loadKeyboard, mode]
  have kb : (u.configuring data held).kb = u.kb := rfl
  have pass : (u.configuring data held).settings.pass = (loadLane data held).1.pass := rfl
  refine ⟨fun off => ?_, fun on other => ?_, fun on scanning => ?_⟩
  · rw [off, if_neg (by simp), followScan_kb, mode, off, kb, pass]
    simp only [Bool.false_eq_true, if_false, eq_comm]
  · rw [if_neg fun h => other h.2, followScan_kb, mode, if_pos on, kb, pass]
    exact if_neg other.symm
  · rw [if_pos ⟨if_pos on, scanning⟩]
    rfl

theorem configure_keeps (u : LaneUnit) (data : List Byte) (held : Option DrawerSettings) :
    (u.configure data held).configured = true ∧ (u.configure data held).settings = (loadLane data held).1 ∧
      (u.configure data held).laneState = (if (loadLane data held).1.enable then .active else .disabled) ∧
      (u.configure data held).drawer = u.drawer ∧ (u.configure data held).portA = u.portA ∧
      (u.configure data held).portB = u.portB := by
  obtain ⟨kb, keylock, -, fields⟩ := configure_fields u data held
  rw [fields]
  exact ⟨rfl, rfl, rfl, rfl, rfl, rfl⟩

/-! ## The lane at the delivery -/

/-- A port whose order enable flag is set (R54). -/
def ScanPort.enabled (q : ScanPort) : ScanPort := { q with orderEnable := true }

/-- The ports and the drawer of the lane under the settings in force, with the order enables set. -/
def LaneUnit.partsLoaded (u : LaneUnit) (now : Word32) : LaneUnit :=
  { u with portA := u.portsAfter.portA.enabled, portB := u.portsAfter.portB.enabled, drawer := u.refittedDrawer now }

/-- The lane unit at the delivery. -/
def LaneUnit.loaded (u : LaneUnit) (data : List Byte) (held : Option DrawerSettings) (now : Word32) : LaneUnit :=
  (u.configure data held).partsLoaded now

theorem loaded_parts (u : LaneUnit) (data : List Byte) (held : Option DrawerSettings) (now : Word32) :
    (u.loaded data held now).drawer = drawerAfter u.drawer (loadLane data held).1.drawer (loadLane data held).1.drawer.enable now ∧
      ∀ p, (u.loaded data held now).port p = { portAfter (u.port p) ((u.configuring data held).portSettings p) true
        (if (loadLane data held).1.enable then .active else .disabled) with orderEnable := true } := by
  obtain ⟨configured, settings, laneState, drawer, portA, portB⟩ := configure_keeps u data held
  unfold LaneUnit.loaded LaneUnit.partsLoaded
  refine ⟨?_, fun p => ?_⟩
  · show drawerAfter _ _ _ now = _
    rw [drawer, settings, LaneUnit.drawerRuns, configured, settings]
    rfl
  · cases p
    · show ScanPort.enabled (portAfter _ _ _ _) = _
      rw [portA, settings, configured, laneState]; rfl
    · show ScanPort.enabled (portAfter _ _ _ _) = _
      rw [portB, settings, configured, laneState]; rfl

/-- The ports and the drawer of lane `l` take the settings in force at LOADING. -/
def State.loadParts (s : State) (l : Lane) : State :=
  (((s.reloadPorts l).modPort l .a ScanPort.enabled).modPort l .b ScanPort.enabled).reloadDrawer l

theorem booked_enabled {u v : LaneUnit} (h : Booked u v) :
    Booked { u with portA := u.portA.enabled, portB := u.portB.enabled } { v with portA := v.portA.enabled, portB := v.portB.enabled } :=
  h.lift (f := fun u => { u with portA := u.portA.enabled, portB := u.portB.enabled }) fun _ _ _ _ _ _ => rfl

theorem booked_loadParts {s : State} (silent : s.inRun = false) (l : Lane) :
    Booked ((s.lane l).partsLoaded s.run.clock) ((s.loadParts l).lane l) := by
  have ports := booked_enabled (booked_reloadPorts s l)
  have step := LaneStep.reloadPorts l s
  unfold State.loadParts
  generalize s.reloadPorts l = x at ports step
  have lane : ((x.modPort l .a ScanPort.enabled).modPort l .b ScanPort.enabled).lane l =
      { x.lane l with portA := (x.lane l).portA.enabled, portB := (x.lane l).portB.enabled } := by
    rw [lane_modPort, lane_modPort]; rfl
  rw [← lane] at ports
  have clock : ((x.modPort l .a ScanPort.enabled).modPort l .b ScanPort.enabled).run.clock = s.run.clock := step.clock
  have inRun : ((x.modPort l .a ScanPort.enabled).modPort l .b ScanPort.enabled).inRun = false := step.inRun.trans silent
  have drawer := booked_reloadDrawer ports
  rw [clock, inRun, LaneUnit.drawerMoved, if_neg (by simp)] at drawer
  exact drawer

theorem configureLane_eq (s : State) (l : Lane) (data : List Byte) :
    s.configureLane l data = (s.modLane l fun u => u.configure data (s.heldDrawer l)).loadParts l := rfl

theorem booked_configureLane {s : State} (silent : s.inRun = false) (l : Lane) (data : List Byte) :
    Booked ((s.lane l).loaded data (s.heldDrawer l) s.run.clock) ((s.configureLane l data).lane l) := by
  have parts := booked_loadParts (s := s.modLane l fun u => u.configure data (s.heldDrawer l)) silent l
  rw [lane_modLane_same] at parts
  rw [configureLane_eq]
  generalize State.loadParts _ l = t at parts ⊢
  exact parts

/-- Every block but the lanes at the delivery. -/
def State.delivering (s : State) : State :=
  { s with
    run.enable := s.unit.loadHost.enable
    staging.devSeq := 0
    journal := s.journal.load
    unit := { s.unit with host := s.unit.loadHost, devRewrite := true, load := .status allTargets, loadRecords := [] } }

/-- What the delivery does to lane `l`, by the records read. -/
def deliverTo (records : List (List Byte)) (l : Lane) (s : State) : State :=
  match records[l.val]? with
  | some data => s.configureLane l data
  | none => s.modLane l LaneUnit.unconfigure

theorem deliver_eq (s : State) : s.deliver = s.delivering.forLanes (deliverTo s.unit.loadRecords) := rfl

/-- Lane `l` stands as it did when a state in which the delivery of it begins is as `s` but for the lanes. -/
def deliversAs (s : State) (records : List (List Byte)) (l : Lane) (u v : LaneUnit) : Prop :=
  ∃ t : State, t.run.clock = s.run.clock ∧ t.inRun = false ∧ t.unit.policyLock = s.unit.policyLock ∧ t.lane l = u ∧
    (deliverTo records l t).lane l = v

/-- The delivery of one lane finds the lane as the load found it. -/
theorem deliver_lane {s : State} (silent : s.inRun = false) (l : Lane) :
    deliversAs s s.unit.loadRecords l (s.lane l) (s.deliver.lane l) := by
  rw [deliver_eq]
  refine (forLanes_silent (deliverTo s.unit.loadRecords) (deliversAs s s.unit.loadRecords) s.delivering fun l t ht => ?_).2 l
  have inRun : t.inRun = false := by rw [ht]; exact silent
  have clock : t.run.clock = s.run.clock := by rw [ht]; rfl
  have lock : t.unit.policyLock = s.unit.policyLock := by rw [ht]; rfl
  have set : ∃ u, deliverTo s.unit.loadRecords l t = t.setLane l u := by
    unfold deliverTo
    split
    · exact ⟨_, (configureLane_silent inRun l _).choose_spec.1⟩
    · exact ⟨_, rfl⟩
  obtain ⟨u, hu⟩ := set
  exact ⟨u, hu, t, clock, inRun, lock, rfl, by rw [hu, lane_setLane_same]⟩

theorem loaded_of_deliver {s : State} (silent : s.inRun = false) {l : Lane} {data : List Byte}
    (rec : s.unit.loadRecords[l.val]? = some data) :
    Booked ((s.lane l).loaded data (s.heldDrawer l) s.run.clock) (s.deliver.lane l) := by
  obtain ⟨t, clock, inRun, lock, lane, eq⟩ := deliver_lane silent l
  have held : s.heldDrawer l = t.heldDrawer l := by rw [State.heldDrawer, State.heldDrawer, lock, lane]
  rw [← eq, deliverTo, rec, ← clock, ← lane, held]
  exact booked_configureLane inRun l data

/-- Every block at the delivery (R115, R117, R155, R171). -/
theorem deliver_blocks {s : State} (silent : s.inRun = false) :
    s.deliver.run = { s.run with enable := s.unit.loadHost.enable } ∧ s.deliver.staging = { s.staging with devSeq := 0 } ∧
      s.deliver.walker = s.walker ∧ s.deliver.journal = s.journal.load ∧
      s.deliver.unit =
        { s.unit with host := s.unit.loadHost, devRewrite := true, load := .status allTargets, loadRecords := [] } := by
  have blocks := (deliver_spec silent).1
  refine ⟨?_, ?_, ?_, ?_, ?_⟩ <;> rw [blocks]

theorem configured_of_deliver {s : State} (silent : s.inRun = false) {l : Lane} {data : List Byte}
    (rec : s.unit.loadRecords[l.val]? = some data) : Configured (s.lane l) (s.deliver.lane l) data (s.heldDrawer l) := by
  have lane := (deliver_spec silent).2 l
  rw [rec] at lane
  exact lane

theorem unconfigured_of_deliver {s : State} (silent : s.inRun = false) {l : Lane} (none : s.unit.loadRecords[l.val]? = none) :
    s.deliver.lane l = (s.lane l).unconfigure := by
  have lane := (deliver_spec silent).2 l
  rw [none] at lane
  exact lane

/-! ## The read of a lane record -/

theorem exec_laneRecord {s : State} {g : Grant} {l : Lane} (data : List Byte) (granted : s.dma.granted = some g)
    (purpose : g.req.purpose = .laneSettingsRead l) :
    exec (.laneSettingsReadComplete data) s = .next (s.complete.laneRecord l data).settle := by
  show execLaneSettingsReadComplete data s = _
  unfold execLaneSettingsReadComplete
  rw [purpose_of_granted granted purpose]

/-- The load with the record just read (R155 step 2). -/
def State.withRecord (s : State) (data : List Byte) : State := { s with unit.loadRecords := s.unit.loadRecords ++ [data] }

theorem laneRecord_next {s : State} {l : Lane} (data : List Byte) (more : l.val + 1 < s.unit.loadHost.lanesInUse) :
    s.laneRecord l data = { s.withRecord data with unit.load := .laneRecord (l + 1) } := if_pos more

theorem laneRecord_last {s : State} {l : Lane} (data : List Byte) (last : s.unit.loadHost.lanesInUse ≤ l.val + 1) :
    s.laneRecord l data = (s.withRecord data).deliver := if_neg (Nat.not_lt.2 last)

theorem unconfigure_eq (u : LaneUnit) : u.unconfigure = { LaneUnit.reset with
    rewrite := true
    store := u.store
    keylock := { Keylock.reset with contacts := u.keylock.contacts }
    drawer := { Drawer.reset with rawOpen := u.drawer.rawOpen, latch := u.drawer.latch, history := u.drawer.history } } := rfl

/-- Settles O17: while lanes remain by `settle_load`, at the last one by `deliver_spec`. -/
theorem laneSettingsRead : Obligations.LaneSettingsRead := by
  unfold Obligations.LaneSettingsRead
  intro s g l data granted purpose loading
  have done := exec_laneRecord data granted purpose
  have free := complete_busy granted
  rw [complete_eq granted] at done free
  generalize memWrite s.hostMem g.address g.req.data = hostMem at done free
  refine ⟨fun more => ?_, fun last => ?_⟩
  · rw [laneRecord_next data (by exact more)] at done
    refine ⟨_, _, done, settle_frame _, rfl, fun idle => settle_load ?_ ?_ (.inr ⟨l + 1, ?_, rfl⟩)⟩
    · exact loading
    · exact free idle
    · rfl
  · rw [laneRecord_last data (by exact last)] at done
    refine ⟨_, _, done, settle_frame _, ?_⟩
    have silent : (({ s with hostMem := hostMem, dma.granted := none } : State).withRecord data).inRun = false := by
      show (s.run.device == .running || s.run.device == .stopping) = false
      rw [loading]; rfl
    obtain ⟨run, staging, walker, journal, unit⟩ := deliver_blocks silent
    have configured (k : Lane) (rec : List Byte) := configured_of_deliver (l := k) (data := rec) silent
    have unconfigured (k : Lane) := unconfigured_of_deliver (l := k) silent
    generalize State.deliver _ = m at *
    refine ⟨run, staging, walker, ?_, ?_, ?_, ?_, ?_, ?_, ?_, fun k => ?_, fun k rec found => ?_, unconfigured⟩
    · rw [journal]; rfl
    · rw [journal]; rfl
    · rw [journal]; rfl
    · rw [journal]; rfl
    · rw [unit]; rfl
    · rw [unit]
    · rw [unit]; rfl
    · cases found : (s.unit.loadRecords ++ [data])[k.val]? with
      | some rec => exact (configured k rec found).rewrite
      | none => rw [unconfigured k found]; rfl
    · obtain c := configured k rec found
      exact ⟨c.configured, c.settings, c.clamped, c.held, c.stored, c.laneState, c.orderA, c.orderB, c.seq, by rw [c.acceptor]; rfl,
        c.position, c.running, c.latch, c.history, c.counters.1⟩

/-- Settles O21: each clause reads one part of `loaded`. -/
theorem loadDelivery : Obligations.LoadDelivery := by
  unfold Obligations.LoadDelivery
  intro s g l data granted purpose loading last
  have done := exec_laneRecord data granted purpose
  rw [complete_eq granted, laneRecord_last data (by exact last)] at done
  generalize memWrite s.hostMem g.address g.req.data = hostMem at done
  refine ⟨_, _, done, settle_frame _, ?_⟩
  have silent : (({ s with hostMem := hostMem, dma.granted := none } : State).withRecord data).inRun = false := by
    show (s.run.device == .running || s.run.device == .stopping) = false
    rw [loading]; rfl
  obtain ⟨run, staging, -⟩ := deliver_blocks silent
  have configured (k : Lane) (rec : List Byte) := configured_of_deliver (l := k) (data := rec) silent
  have loaded (k : Lane) (rec : List Byte) := loaded_of_deliver (l := k) (data := rec) silent
  generalize State.deliver _ = m at *
  refine ⟨by rw [staging]; rfl, by rw [run]; rfl, fun k rec found => ?_⟩
  obtain c := configured k rec found
  intro u v cs st ports
  let held := s.heldDrawer k
  have booked : Booked (u.loaded rec held s.run.clock) v := loaded k rec found
  obtain ⟨drawer, port⟩ := loaded_parts u rec held s.run.clock
  obtain ⟨off, starts, goesOn⟩ := configure_kb u rec held
  have vkb : v.kb = (u.configure rec held).kb := (kb_booked booked).trans rfl
  have vkeylock : v.keylock = (u.configure rec held).keylock := (keylock_booked booked).trans rfl
  refine ⟨c.idle, fun p => ?_, ?_, vkeylock.trans (configure_parts u rec held).2, fun h => vkb.trans (off h),
    fun h other => vkb.trans (starts h other), fun h scanning => ?_, c.counters.2⟩
  · rw [port_booked booked]
    refine (port p).trans ?_
    cases p <;> rfl
  · exact (drawer_booked booked).trans drawer
  · rw [vkb, goesOn h scanning]
    exact keysRefitted_withSettings ..

end Sys2Proof.Machine
end

section
/-! PROOFS. What the work of an event leaves as it is and what it keeps (R102, R103, R109, R113 to R115, R155, R168, R176, R178, R181), as a
relation that is closed under composition: every event's work is a chain of steps in it. -/

namespace Sys2Proof.Machine

/-! ## The relation -/

/-- The machine's invariants, but for host memory and the engine that waits. -/
structure State.coreOk (s : State) : Prop where
  base : s.baseOk
  fault : s.faultOk
  load : s.loadOk
  queue : s.queueOk
  seq : s.seqOk

/-- Every lane unit is as every step keeps it. -/
def State.lanesSound (s : State) : Prop := ∀ l, (s.lane l).sound

/-- From `s` to `t`, with `mem` in host memory, the waiting commands, the clock and the registers are as they were, and causes are only
added. -/
structure Keeps (s : State) (mem : List Host.Cell) (t : State) : Prop where
  pending : t.pending = s.pending
  clock : t.run.clock = s.run.clock
  lastReset : t.run.lastReset = s.run.lastReset
  runCount : t.run.runCount = s.run.runCount
  areaLow : t.run.areaLow = s.run.areaLow
  areaHigh : t.run.areaHigh = s.run.areaHigh
  causes : ∀ i, s.run.causes.getLsbD i = true → t.run.causes.getLsbD i = true
  hostMem : t.hostMem = mem

/-- From `s` to `t` a command that is no reset and none of run control's own has worked: beside what it keeps, the invariants hold on. -/
structure Leaves (s : State) (mem : List Host.Cell) (t : State) : Prop extends Keeps s mem t where
  core : s.coreOk → t.coreOk
  lanes : s.lanesSound → t.lanesSound

/-- From `s` to `t` work has been done that stores nothing, and that leaves FAULTED as it finds it (R168, R181). -/
structure Work (s t : State) : Prop extends Leaves s s.hostMem t where
  faulted : s.run.device = .faulted → s.dma.granted = none →
    t.run.device = .faulted ∧ t.run.fault = s.run.fault ∧ t.dma.granted = none ∧ t.staging.queue = s.staging.queue

theorem Keeps.refl (s : State) : Keeps s s.hostMem s := ⟨rfl, rfl, rfl, rfl, rfl, rfl, fun _ => id, rfl⟩

theorem Keeps.trans {s t u : State} {mem mem' : List Host.Cell} (a : Keeps s mem t) (b : Keeps t mem' u) : Keeps s mem' u where
  pending := b.pending.trans a.pending
  clock := b.clock.trans a.clock
  lastReset := b.lastReset.trans a.lastReset
  runCount := b.runCount.trans a.runCount
  areaLow := b.areaLow.trans a.areaLow
  areaHigh := b.areaHigh.trans a.areaHigh
  causes i h := b.causes i (a.causes i h)
  hostMem := b.hostMem

theorem Leaves.trans {s t u : State} {mem mem' : List Host.Cell} (a : Leaves s mem t) (b : Leaves t mem' u) : Leaves s mem' u where
  toKeeps := a.toKeeps.trans b.toKeeps
  core h := b.core (a.core h)
  lanes h := b.lanes (a.lanes h)

/-- Work that stores nothing goes on with the memory it finds. -/
theorem Leaves.onward {s t u : State} {mem : List Host.Cell} (a : Leaves s mem t) (b : Leaves t t.hostMem u) : Leaves s mem u := by
  have both := a.trans b
  rwa [a.hostMem] at both

theorem Leaves.work {s t u : State} {mem : List Host.Cell} (a : Leaves s mem t) (b : Work t u) : Leaves s mem u := by
  exact a.onward b.toLeaves

theorem Work.trans {s t u : State} (a : Work s t) (b : Work t u) : Work s u where
  toLeaves := a.toLeaves.work b
  faulted device free := by
    obtain ⟨device, fault, free, queue⟩ := a.faulted device free
    obtain ⟨device', fault', free', queue'⟩ := b.faulted device free
    exact ⟨device', fault'.trans fault, free', queue'.trans queue⟩

/-! ## Work that moves no lane, no record and no request -/

/-- From `s` to `t` the lanes, the staging queue, the engine, host memory and run control, but for its drain marks and the causes it may
gain, are as they were, and so are the flow low marks. -/
structure Still (s t : State) : Prop where
  pending : t.pending = s.pending
  device : t.run.device = s.run.device
  fault : t.run.fault = s.run.fault
  clock : t.run.clock = s.run.clock
  lastReset : t.run.lastReset = s.run.lastReset
  runCount : t.run.runCount = s.run.runCount
  area : t.run.areaLow = s.run.areaLow ∧ t.run.areaHigh = s.run.areaHigh
  causes : ∀ i, s.run.causes.getLsbD i = true → t.run.causes.getLsbD i = true
  lanes : t.lanes = s.lanes
  queue : t.staging.queue = s.staging.queue
  devSeq : t.staging.devSeq = s.staging.devSeq
  dma : t.dma = s.dma
  hostMem : t.hostMem = s.hostMem
  flowLow : t.unit.host.flowLow = s.unit.host.flowLow ∧ t.unit.loadHost.flowLow = s.unit.loadHost.flowLow

theorem State.queueOk.congr {s t : State} (h : s.queueOk) (device : t.run.device = s.run.device)
    (queue : t.staging.queue = s.staging.queue)
    (flowLow : t.unit.host.flowLow = s.unit.host.flowLow ∧ t.unit.loadHost.flowLow = s.unit.loadHost.flowLow) : t.queueOk := by
  rw [State.queueOk, device, queue, flowLow.1, flowLow.2]
  exact h

theorem Still.work {s t : State} (h : Still s t) : Work s t where
  pending := h.pending
  clock := h.clock
  lastReset := h.lastReset
  runCount := h.runCount
  areaLow := h.area.1
  areaHigh := h.area.2
  causes := h.causes
  hostMem := h.hostMem
  core c :=
    { base := by rw [State.baseOk, h.area.1]; exact c.base
      fault := by rw [State.faultOk, h.device, h.dma]; exact c.fault
      load := c.load.same h.dma h.device
      queue := c.queue.congr h.device h.queue h.flowLow
      seq := c.seq.congr h.queue h.devSeq fun m => by rw [lane_congr h.lanes m] }
  lanes c l := by rw [lane_congr h.lanes l]; exact c l
  faulted device free := ⟨h.device.trans device, h.fault, by rw [h.dma]; exact free, h.queue⟩

theorem Work.refl (s : State) : Work s s :=
  Still.work ⟨rfl, rfl, rfl, rfl, rfl, rfl, ⟨rfl, rfl⟩, fun _ => id, rfl, rfl, rfl, rfl, rfl, ⟨rfl, rfl⟩⟩

/-- A change of the journal writer, the walker, the settings unit's own state, the drain marks, or flow hold. -/
theorem Work.blocks {s t : State} (run : t.run = { s.run with walkerDone := t.run.walkerDone, journalDone := t.run.journalDone } := by rfl)
    (lanes : t.lanes = s.lanes := by rfl) (pending : t.pending = s.pending := by rfl)
    (queue : t.staging.queue = s.staging.queue := by rfl) (devSeq : t.staging.devSeq = s.staging.devSeq := by rfl)
    (dma : t.dma = s.dma := by rfl) (hostMem : t.hostMem = s.hostMem := by rfl) (host : t.unit.host = s.unit.host := by rfl)
    (loadHost : t.unit.loadHost = s.unit.loadHost := by rfl) : Work s t :=
  Still.work ⟨pending, by rw [run], by rw [run], by rw [run], by rw [run], by rw [run], ⟨by rw [run], by rw [run]⟩,
    fun i h => by rw [run]; exact h, lanes, queue, devSeq, dma, hostMem, by rw [host], by rw [loadHost]⟩

theorem Work.raise (s : State) (c : Cause) : Work s (s.raise c) :=
  Still.work ⟨rfl, rfl, rfl, rfl, rfl, rfl, ⟨rfl, rfl⟩, fun i h => by
    rw [State.raise, BitVec.getLsbD_or, h, Bool.true_or], rfl, rfl, rfl, rfl, rfl, ⟨rfl, rfl⟩⟩

theorem Work.clearStall (s : State) (owner : StallOwner) : Work s (s.clearStall owner) := by
  unfold State.clearStall
  split
  · exact Work.blocks
  · exact Work.refl s

/-! ## Requests (R167) -/

theorem Work.request (s : State) {w : Requester} {r : Request} (owner : r.purpose.owner = w) (other : w ≠ .settings) :
    Work s (s.request w r) := by
  have load (h : s.loadOk) : (s.request w r).loadOk := h.request owner (fun e => absurd e other) fun l e => by
    rw [← owner, e] at other
    exact absurd rfl other
  have same : (s.request w r).run = s.run ∧ (s.request w r).staging = s.staging ∧ (s.request w r).unit = s.unit ∧
      (s.request w r).lanes = s.lanes ∧ (s.request w r).hostMem = s.hostMem ∧ (s.request w r).pending = s.pending ∧
      (s.request w r).dma.granted = s.dma.granted := by
    cases w <;> exact ⟨rfl, rfl, rfl, rfl, rfl, rfl, rfl⟩
  obtain ⟨run, staging, unit, lanes, hostMem, pending, granted⟩ := same
  exact {
    pending := pending
    clock := by rw [run]
    lastReset := by rw [run]
    runCount := by rw [run]
    areaLow := by rw [run]
    areaHigh := by rw [run]
    causes := fun i h => by rw [run]; exact h
    hostMem := hostMem
    core := fun c =>
      { base := by rw [State.baseOk, run]; exact c.base
        fault := by rw [State.faultOk, run, granted]; exact c.fault
        load := load c.load
        queue := c.queue.congr (by rw [run]) (by rw [staging]) ⟨by rw [unit], by rw [unit]⟩
        seq := c.seq.congr (by rw [staging]) (by rw [staging]) fun m => by rw [lane_congr lanes m] }
    lanes := fun c l => by rw [lane_congr lanes l]; exact c l
    faulted := fun device free => ⟨by rw [run]; exact device, by rw [run], by rw [granted]; exact free, by rw [staging]⟩ }

theorem Work.journal (s : State) {r : Request} (owner : r.purpose.owner = .journal) : Work s (s.request .journal r) :=
  Work.request s owner (by decide)

theorem Work.walker (s : State) {r : Request} (owner : r.purpose.owner = .walker) : Work s (s.request .walker r) :=
  Work.request s owner (by decide)

/-! ## Lanes -/

theorem LaneFrame.keeps {on : Lane → Prop} {s t : State} (h : LaneFrame on s t) : Keeps s s.hostMem t where
  pending := h.pending
  clock := h.clock
  lastReset := by rw [h.run]
  runCount := by rw [h.run]
  areaLow := by rw [h.run]
  areaHigh := by rw [h.run]
  causes i c := by rw [← h.causes, BitVec.getLsbD_or, c, Bool.or_true]
  hostMem := h.hostMem

theorem silent_of_idle {s : State} (h : s.run.device = .resetIdle ∨ s.run.device = .loading ∨ s.run.device = .stopped) :
    s.inRun = false := by
  simp only [State.inRun]
  rcases h with e | e | e <;> rw [e] <;> rfl

theorem LaneFrame.core {on : Lane → Prop} {s t : State} (h : LaneFrame on s t) (c : s.coreOk) : t.coreOk where
  base := by rw [State.baseOk, h.run]; exact c.base
  fault := by rw [State.faultOk, h.device, h.dma]; exact c.fault
  load := h.loadOk c.load
  queue := by
    obtain ⟨fill, low, loadLow, idle⟩ := c.queue
    refine ⟨h.fill fill, by rw [h.unit]; exact low, by rw [h.unit]; exact loadLow, fun device => ?_⟩
    rw [h.device] at device
    rw [h.produced (silent_of_idle device)]
    exact idle device
  seq := h.numbered c.seq

/-- The event of a lane is work. -/
theorem Work.lane {l : Lane} {s t : State} (step : LaneStep (only l) s t) (fits : Fits l s t) : Work s t where
  toKeeps := step.toLaneFrame.keeps
  core := step.toLaneFrame.core
  lanes c m := by
    by_cases same : m = l
    · subst same
      obtain ⟨ok, fit, settings⟩ := c m
      obtain ⟨configured, range, -, -, store⟩ := step.settings m
      exact ⟨step.keeps m ok, fits fit, settings.congr configured range store⟩
    · rw [step.others m same]
      exact c m
  faulted device free := by
    have silent : s.inRun = false := by simp only [State.inRun]; rw [device]; rfl
    exact ⟨step.device.trans device, by rw [step.run], by rw [step.dma]; exact free, step.produced silent⟩

end Sys2Proof.Machine
end

section
/-! PROOFS. The work of the journal writer, the order walker and run control, operation by operation, and the end of an event. -/

namespace Sys2Proof.Machine

/-! ## Outside RUNNING and STOPPING -/

theorem drained_of_faulted {s : State} (device : s.run.device = .faulted) : s.drained = false :=
  not_drained (by rw [device]; decide)

/-! ## The journal writer (chapters 6 and 7) -/

theorem Work.startFetch (s : State) : Work s s.startFetch :=
  (Work.blocks (t := { s with journal.state := .needPage })).trans (Work.journal _ rfl)

theorem Work.endEpisode (s : State) : Work s s.endEpisode := by
  unfold State.endEpisode
  split <;> exact Work.blocks

theorem Work.beginEpisode (s : State) : Work s s.beginEpisode := by
  unfold State.beginEpisode
  split
  · exact Work.refl s
  · exact ((Work.blocks (t := { s with journal.episode := true, journal.recheck := s.unit.host.recheckTimer })).trans
      (Work.raise _ .starved)).trans Work.blocks

theorem Work.recordStall (s : State) (owner : StallOwner) (reason : StallReason) (offset : Word32) :
    Work s (s.recordStall owner reason offset) := Work.blocks

theorem Work.beginClose (s : State) (page : OpenPage) (why : CloseReason) : Work s (s.beginClose page why) := by
  rw [beginClose_eq]
  exact (Work.blocks (t := s.closing page why)).trans (Work.journal _ rfl)

theorem haltJournal_pending (s : State) : s.haltJournal.pending = s.pending := by
  unfold State.haltJournal
  refine (forLanes_keep State.pending _ (fun l s => rfl) _).trans ?_
  unfold State.endEpisode
  split <;> rfl

/-- At the end of the drain the queue is empty, as it has to be in STOPPED (R115). -/
theorem Work.haltJournal {s : State} (ends : s.drained = true) : Work s s.haltJournal := by
  obtain ⟨stopping, -, empty, -⟩ := (drained_iff s).1 ends
  obtain ⟨-, run, unit, lanes, staging, -, dma, hostMem⟩ := haltJournal_spec s
  exact {
    pending := haltJournal_pending s
    clock := by rw [run]
    lastReset := by rw [run]
    runCount := by rw [run]
    areaLow := by rw [run]
    areaHigh := by rw [run]
    causes := fun i h => by rw [run]; exact h
    hostMem := hostMem
    core := fun c =>
      { base := by rw [State.baseOk, run]; exact c.base
        fault := by rw [State.faultOk, run]; intro h; cases h
        load := c.load.haltJournal stopping
        queue := ⟨by rw [staging]; exact c.queue.1, by rw [unit]; exact c.queue.2.1, by rw [unit]; exact c.queue.2.2.1,
          fun _ => by rw [staging]; exact empty⟩
        seq := c.seq.congr (by rw [staging]) (by rw [staging]) fun m => by rw [lanes]; rfl }
    lanes := fun c l => by rw [lanes]; exact sound_dropCapture (c l)
    faulted := fun device _ => by rw [stopping] at device; cases device }

theorem Work.again {s t : State} (h : Work s t) (c : Prop) [Decidable c] : Work s (if c then t.startFetch else t) := by
  split
  · exact h.trans (Work.startFetch t)
  · exact h

theorem Work.fetchStarved (s : State) (stale : Option Word32) : Work s (s.fetchStarved stale) := by
  unfold State.fetchStarved
  split
  · next ends =>
    exact (Work.blocks (t := { s with journal.stale := stale.bind fun _ => s.journal.stale })).trans (Work.haltJournal ends)
  · have marked : Work s { s with journal.stale := stale } := Work.blocks
    cases stale with
    | none => exact Work.again (marked.trans ((Work.beginEpisode _).trans Work.blocks)) _
    | some o => exact Work.again (marked.trans ((Work.recordStall _ .journal .stalePage o).trans ((Work.beginEpisode _).trans Work.blocks))) _

theorem Work.fetchBroken (s : State) (link : Word32) : Work s (s.fetchBroken link) := by
  have recorded := ((Work.raise s .chain).trans (Work.recordStall _ .journal .badPageLink link)).trans (Work.endEpisode _)
  unfold State.fetchBroken
  dsimp only
  split
  · next ends => exact (recorded.trans Work.blocks).trans (Work.haltJournal ends)
  · exact Work.again (recorded.trans Work.blocks) _

theorem Work.pageLink (s : State) (link : Word32) : Work s (s.pageLink link) := by
  unfold State.pageLink
  split
  · exact (Work.clearStall s _).trans (Work.fetchStarved _ _)
  · split
    · exact Work.journal _ rfl
    · exact Work.fetchBroken s link

theorem Work.openPage (s : State) (offset : Word32) : Work s (s.openPage offset) := by
  unfold State.openPage
  exact ((Work.clearStall s .journal).trans (Work.endEpisode _)).trans Work.blocks

theorem Work.pageHeader (s : State) (offset : Word32) (state : Byte) : Work s (s.pageHeader offset state) := by
  unfold State.pageHeader
  split
  · exact Work.openPage s offset
  · exact Work.fetchStarved s _

theorem Work.bodyWritten (s : State) : Work s s.bodyWritten := by
  unfold State.bodyWritten
  split
  · exact Work.journal _ rfl
  · exact Work.refl s

theorem Work.announce (s : State) (why : CloseReason) : Work s (s.announce why) := by
  simp only [State.announce]
  split
  · exact (Work.blocks (t := { s with journal.unannounced := 0 })).trans (Work.raise _ _)
  · exact Work.blocks

theorem Work.lingerExpired (s : State) : Work s s.lingerExpired := by
  unfold State.lingerExpired
  split
  · exact Work.refl s
  · split
    · exact Work.refl s
    · split
      · exact (Work.blocks (t := { s with journal.unannounced := 0, journal.linger := none })).trans (Work.raise _ _)
      · split
        · exact Work.blocks
        · exact Work.beginClose ..

theorem Work.journalReread (s : State) : Work s s.journalReread :=
  (Work.blocks (t := { s with journal.recheck := s.unit.host.recheckTimer })).trans (Work.startFetch _)

theorem Work.notifyJournal (s : State) : Work s s.notifyJournal := by
  unfold State.notifyJournal
  split
  · exact Work.journalReread s
  · exact Work.blocks
  all_goals exact Work.refl s

theorem Work.journalRecheck (s : State) : Work s s.journalRecheck := by
  unfold State.journalRecheck
  split
  · exact Work.journalReread s
  · exact Work.blocks
  all_goals exact Work.refl s

theorem Work.reheadJournal (s : State) : Work s s.reheadJournal := by
  simp only [State.reheadJournal]
  have start : Work s { s with journal.fromAnchor := true } := Work.blocks
  split
  · exact start.trans (Work.startFetch _)
  · exact start.trans (Work.startFetch _)
  · exact Work.blocks
  all_goals exact start

/-! ## The order walker (chapter 8) -/

theorem Work.walkerFetch (s : State) (again : Bool) : Work s (s.walkerFetch again) :=
  (Work.blocks (t := { s with walker.state := .fetching, walker.isReread := again })).trans (Work.walker _ rfl)

theorem Work.haltWalker (s : State) : Work s s.haltWalker := Work.blocks

theorem Work.walkerAgain {s t : State} (h : Work s t) (c : Prop) [Decidable c] (again : Bool) :
    Work s (if c then t.walkerFetch again else t) := by
  split
  · exact h.trans (Work.walkerFetch t again)
  · exact h

theorem Work.fetchParked (s : State) (stale : Option Word32) : Work s (s.fetchParked stale) := by
  unfold State.fetchParked
  split
  · split
    · exact Work.haltWalker s
    · exact (Work.clearStall s _).trans (Work.haltWalker _)
  · cases stale with
    | none => exact Work.walkerAgain ((Work.clearStall s .walker).trans Work.blocks) _ true
    | some o =>
      dsimp only
      split
      · exact Work.walkerAgain Work.blocks _ true
      · exact Work.walkerAgain (((Work.raise s .stall).trans (Work.recordStall _ .walker .staleSlip o)).trans Work.blocks) _ true

theorem Work.walkerBroken (s : State) (link : Word32) : Work s (s.walkerBroken link) := by
  have recorded := (Work.raise s .chain).trans (Work.recordStall _ .walker .badSlipLink link)
  unfold State.walkerBroken
  dsimp only
  split
  · exact (recorded.trans Work.blocks).trans (Work.haltWalker _)
  · exact Work.walkerAgain (recorded.trans Work.blocks) _ false

theorem Work.orderLink (s : State) (link : Word32) : Work s (s.orderLink link) := by
  unfold State.orderLink
  split
  · exact Work.fetchParked s none
  · split
    · exact Work.walker _ rfl
    · exact Work.walkerBroken s link

theorem Work.takeSlip (s : State) (sl : Slip) : Work s (s.takeSlip sl) := by
  unfold State.takeSlip
  exact (Work.clearStall s .walker).trans ((Work.blocks (t := _)).trans (Work.walker _ rfl))

theorem Work.slipRead (s : State) (offset : Word32) (data : List Byte) : Work s (s.slipRead offset data) := by
  unfold State.slipRead
  split
  · split
    · exact Work.haltWalker s
    · exact Work.takeSlip s _
  · exact Work.fetchParked s _

theorem Work.answer (s : State) (a : Answer) : Work s (s.answer a) := by
  unfold State.answer
  split
  · exact (Work.blocks (t := { s with walker.state := .working, walker.stage := .body a })).trans (Work.walker _ rfl)
  · exact Work.refl s

theorem Work.wait (s : State) : Work s s.wait := Work.blocks

theorem Work.takenWritten (s : State) : Work s s.takenWritten := by
  unfold State.takenWritten
  split
  · split
    · exact Work.answer s _
    · exact Work.blocks
  · exact Work.refl s

theorem Work.slipBodyWritten (s : State) : Work s s.slipBodyWritten := by
  unfold State.slipBodyWritten
  split
  · exact (Work.blocks (t := { s with walker.stage := .finish })).trans (Work.walker _ rfl)
  · exact Work.refl s

theorem Work.haltOrFetch {s t : State} (h : Work s t) :
    Work s (if t.run.device = .stopping then t.haltWalker else t.walkerFetch false) := by
  split
  · exact h.trans (Work.haltWalker t)
  · exact h.trans (Work.walkerFetch t false)

theorem Work.slipFinished (s : State) : Work s s.slipFinished := by
  unfold State.slipFinished
  split
  · next sl _ =>
    have finished : Work s { s with unit.devRewrite := true, walker := { s.walker with
      fromAnchor := false, lastFinished := some sl.offset, current := none, stage := .none } } := Work.blocks
    dsimp only
    split
    · exact Work.haltOrFetch (finished.trans (Work.raise _ .order))
    · exact Work.haltOrFetch finished
  · exact Work.refl s

theorem Work.walkerReread (s : State) : Work s s.walkerReread :=
  (Work.blocks (t := { s with walker.recheck := s.unit.host.recheckTimer, unit.devRewrite := true })).trans (Work.walkerFetch _ true)

theorem Work.notifyWalker (s : State) : Work s s.notifyWalker := by
  unfold State.notifyWalker
  split
  · exact Work.walkerReread s
  · exact Work.blocks
  all_goals exact Work.refl s

theorem Work.walkerRecheck (s : State) : Work s s.walkerRecheck := by
  unfold State.walkerRecheck
  split
  · exact Work.walkerReread s
  · exact Work.blocks
  all_goals exact Work.refl s

theorem Work.reheadWalker (s : State) : Work s s.reheadWalker := by
  simp only [State.reheadWalker]
  have start : Work s { s with walker.fromAnchor := true } := Work.blocks
  split
  · exact (Work.blocks (t := { s with walker.fromAnchor := true, unit.devRewrite := true })).trans (Work.walkerFetch _ true)
  · exact start.trans (Work.walkerFetch _ false)
  · exact Work.blocks
  all_goals exact start

theorem Work.haltIdleWalker (s : State) : Work s s.haltIdleWalker := by
  unfold State.haltIdleWalker
  split
  · exact Work.haltWalker s
  · exact Work.haltWalker s
  all_goals exact Work.refl s

theorem Work.haltOrRefetch {s t : State} (h : Work s t) : Work s (if t.drained then t.haltJournal else t.startFetch) := by
  split
  · next ends => exact h.trans (Work.haltJournal ends)
  · exact h.trans (Work.startFetch t)

theorem Work.pageClosed (s : State) : Work s s.pageClosed := by
  unfold State.pageClosed
  split
  · next page _ =>
    have closed (flush : FlushPoint) : Work s { s with unit.devRewrite := true, journal := { s.journal with
        pageSeq := s.journal.pageSeq + 1, lastClosed := some page.offset, fromAnchor := false, page := none
        flush := flush } } := Work.blocks
    have announced (flush : FlushPoint) := (closed flush).trans (Work.announce _ (page.closing.getD .full))
    dsimp only
    split
    · exact Work.haltOrRefetch ((announced _).trans (Work.answer _ _))
    · exact Work.haltOrRefetch (announced _)
  · exact Work.refl s

/-! ## The end of an event -/

theorem Work.settle (s : State) : Work s s.settle := by
  have frame := settle_frame s
  have stays (device : s.run.device ≠ .stopping) : s.settle.run = s.run := settle_run (not_drained device)
  have seq : ∀ m, (s.settle.lane m).seq = (s.lane m).seq := fun m => by rw [frame.lanes m]
  have shape : s.settle.run.clock = s.run.clock ∧ s.settle.run.lastReset = s.run.lastReset ∧
      s.settle.run.runCount = s.run.runCount ∧ s.settle.run.areaLow = s.run.areaLow ∧ s.settle.run.areaHigh = s.run.areaHigh ∧
      s.settle.run.causes = s.run.causes := by
    rcases frame.run with e | ⟨-, e⟩ <;> rw [e] <;> exact ⟨rfl, rfl, rfl, rfl, rfl, rfl⟩
  obtain ⟨clock, lastReset, runCount, areaLow, areaHigh, causes⟩ := shape
  exact {
    pending := frame.pending
    clock := clock
    lastReset := lastReset
    runCount := runCount
    areaLow := areaLow
    areaHigh := areaHigh
    causes := fun i h => by rw [causes]; exact h
    hostMem := frame.hostMem
    core := fun c =>
      { base := by rw [State.baseOk, areaLow]; exact c.base
        fault := fun device => by
          rcases frame.run with e | ⟨-, e⟩
          · rw [e] at device
            rw [settle_faulted device]
            exact c.fault device
          · rw [e] at device
            cases device
        load := c.load.settle
        queue := by
          obtain ⟨fill, low, loadLow, idle⟩ := c.queue
          refine ⟨by rw [frame.staging]; exact fill, by rw [frame.unit]; exact low, by rw [frame.unit]; exact loadLow, ?_⟩
          rw [frame.staging]
          rcases frame.run with e | ⟨ends, -⟩
          · rw [e]; exact idle
          · exact fun _ => queue_of_drained ends
        seq := settle_seqOk c.seq }
    lanes := fun c l => by
      obtain ⟨⟨drawer, a, b, keys⟩, ⟨once, receivers⟩, settings⟩ := c l
      rw [frame.lanes l]
      exact ⟨⟨drawer, a, b, keys⟩, ⟨once, receivers⟩, settings⟩
    faulted := fun device free => by
      have run := stays (by rw [device]; decide)
      exact ⟨by rw [run]; exact device, by rw [run], by rw [settle_faulted device]; exact free, by rw [frame.staging]⟩ }

end Sys2Proof.Machine
end

section
/-! PROOFS. The completion of a request (R167), and the work of a record write (R104, R126). -/

namespace Sys2Proof.Machine

/-! ## A completion takes the engine's request away (R167) -/

/-- The granted request has completed: its bytes are in host memory and the engine is free. -/
theorem Leaves.complete {s : State} {g : Grant} (granted : s.dma.granted = some g) : Leaves s s.complete.hostMem s.complete := by
  rw [complete_eq granted]
  exact {
    pending := rfl
    clock := rfl
    lastReset := rfl
    runCount := rfl
    areaLow := rfl
    areaHigh := rfl
    causes := fun _ => id
    hostMem := rfl
    core := fun c =>
      { base := c.base
        fault := fun _ => rfl
        load := ⟨c.load.1, fun g h => by simp at h, c.load.2.2⟩
        queue := c.queue
        seq := c.seq }
    lanes := id }

/-- What a completion does beyond the completion itself is work. -/
theorem Leaves.completing {s m : State} {g : Grant} (granted : s.dma.granted = some g) (work : Leaves s.complete s.complete.hostMem m) :
    Leaves s s.complete.hostMem m := (Leaves.complete granted).onward work

/-! ## Staged records (R109, R112) -/

theorem Stages.keeps {s t : State} {rs : List StagedRecord} (h : Stages s t rs) : Keeps s s.hostMem t := by
  refine ⟨h.pending, ?_, ?_, ?_, ?_, ?_, fun i c => ?_, h.hostMem⟩ <;> rw [h.run]
  exact c

/-- Records staged within the fill that the queue may reach, in a device state that lets them stand. -/
theorem Stages.core {s t : State} {rs : List StagedRecord} (h : Stages s t rs) (c : s.coreOk)
    (fill : s.staging.queue.length + rs.length ≤ 96)
    (runs : s.run.device ≠ .resetIdle ∧ s.run.device ≠ .loading ∧ s.run.device ≠ .stopped) : t.coreOk where
  base := by rw [State.baseOk, h.run]; exact c.base
  fault := by rw [State.faultOk, h.run, h.dma]; exact c.fault
  load := c.load.same h.dma (by rw [h.run])
  queue := by
    obtain ⟨-, low, loadLow, -⟩ := c.queue
    refine ⟨by rw [h.staging]; simpa using fill, by rw [h.unit]; exact low, by rw [h.unit]; exact loadLow, fun device => ?_⟩
    rw [h.run] at device
    exact absurd device (by simp [runs])
  seq := h.numbered c.seq

theorem stamped_flatMap_length (s : State) (g : Lane → List RecordBody) {n : Nat} (few : ∀ l, (g l).length ≤ n) :
    (allLanes.flatMap fun l => stamped l s.run.clock (s.lane l).seq (g l)).length ≤ 8 * n := by
  have each : ∀ ls : List Lane, (ls.flatMap fun l => stamped l s.run.clock (s.lane l).seq (g l)).length ≤ ls.length * n := by
    intro ls
    induction ls with
    | nil => simp
    | cons l ls ih =>
      rw [List.flatMap_cons, List.length_append, stamped_length, List.length_cons, Nat.succ_mul]
      have := few l
      omega
  exact each allLanes

theorem recoveryRecords_few (u : LaneUnit) : u.recoveryRecords.length ≤ 2 := by
  unfold LaneUnit.recoveryRecords
  split
  · split <;> simp
  · simp

theorem baselineRecords_few (u : LaneUnit) : u.baselineRecords.length ≤ 3 := by
  unfold LaneUnit.baselineRecords
  split
  · simp only [List.length_append]
    split <;> split <;> simp
  · simp

/-! ## A record write (R104, R126) -/

/-- The head record has left the queue for the open page. -/
def State.leaveQueue (s : State) (rest : List StagedRecord) (journal : Journal) : State :=
  { s with staging.queue := rest, journal := journal }

theorem afterLeave_silent {s : State} (h : s.unit.host.flowLow < s.staging.queue.length) : s.afterLeave = s := (afterLeave_spec s).1 h

theorem Leaves.leaveQueue {s : State} {r : StagedRecord} {rest : List StagedRecord} (queue : s.staging.queue = r :: rest)
    (journal : Journal) : Leaves s s.hostMem (s.leaveQueue rest journal) where
  pending := rfl
  clock := rfl
  lastReset := rfl
  runCount := rfl
  areaLow := rfl
  areaHigh := rfl
  causes _ := id
  hostMem := rfl
  core c :=
    { base := c.base
      fault := c.fault
      load := c.load.same rfl rfl
      queue := by
        obtain ⟨fill, low, loadLow, idle⟩ := c.queue
        rw [queue] at fill idle
        exact ⟨Nat.le_of_succ_le fill, low, loadLow, fun device => absurd (idle device) (by simp)⟩
      seq := c.seq.leave queue rfl rfl fun _ => rfl }
  lanes := id

theorem sound_of_seq_losses {u v : LaneUnit} (h : u.sound) {losses : Vector Nat 4} {seq : BitVec 16}
    (eq : v = { u with losses := losses, seq := seq }) : v.sound := by
  rw [eq]
  exact ⟨h.ok, h.fit, h.settings⟩

/-- What the recovery step may do (R106, R109): nothing, or records staged with flow hold cleared and losses forgotten. -/
theorem afterLeave_cases (s : State) : s.afterLeave = s ∨ s.staging.queue.length ≤ s.unit.host.flowLow ∧
    (∃ rs, Stages { s with staging.hold := false } s.afterLeave rs ∧ rs.length ≤ 16) ∧
    ∀ l, ∃ losses seq, s.afterLeave.lane l = { s.lane l with losses := losses, seq := seq } := by
  by_cases high : s.unit.host.flowLow < s.staging.queue.length
  · exact .inl (afterLeave_silent high)
  · have low := Nat.not_lt.1 high
    obtain ⟨stages, lanes⟩ := (afterLeave_spec s).2 low
    exact .inr ⟨low, ⟨_, stages, stamped_flatMap_length s (fun l => (s.lane l).recoveryRecords) fun l => recoveryRecords_few _⟩,
      fun l => ⟨_, _, lanes l⟩⟩

theorem Keeps.afterLeave (s : State) : Keeps s s.hostMem s.afterLeave := by
  obtain same | ⟨-, ⟨rs, stages, -⟩, -⟩ := afterLeave_cases s
  · rw [same]
    exact Keeps.refl s
  · have released : Work s { s with staging.hold := false } := Work.blocks
    exact released.toKeeps.trans stages.keeps

theorem sound_afterLeave {s : State} (h : s.lanesSound) : s.afterLeave.lanesSound := by
  intro l
  obtain same | ⟨-, -, lanes⟩ := afterLeave_cases s
  · rw [same]
    exact h l
  · obtain ⟨losses, seq, eq⟩ := lanes l
    exact sound_of_seq_losses (h l) eq

/-- The recovery step leaves the queue within its limit, for the flow low mark leaves it room (R109). -/
theorem core_afterLeave {s : State} (c : s.coreOk)
    (runs : s.run.device ≠ .resetIdle ∧ s.run.device ≠ .loading ∧ s.run.device ≠ .stopped) : s.afterLeave.coreOk := by
  obtain same | ⟨low, ⟨rs, stages, few⟩, -⟩ := afterLeave_cases s
  · rw [same]
    exact c
  · have released : Work s { s with staging.hold := false } := Work.blocks
    have fill : s.staging.queue.length + rs.length ≤ 96 := by
      have := c.queue.2.1
      omega
    exact stages.core (released.core c) fill runs

theorem running_of_queue {s : State} (h : s.queueOk) (waits : s.staging.queue ≠ []) :
    s.run.device ≠ .resetIdle ∧ s.run.device ≠ .loading ∧ s.run.device ≠ .stopped :=
  ⟨fun d => waits (h.2.2.2 (.inl d)), fun d => waits (h.2.2.2 (.inr (.inl d))), fun d => waits (h.2.2.2 (.inr (.inr d)))⟩

theorem Leaves.recordWritten (s : State) : Leaves s s.hostMem s.recordWritten := by
  unfold State.recordWritten
  split
  case h_2 => exact (Work.refl s).toLeaves
  case h_1 r rest page queue _ =>
    have left : ∀ journal, Leaves s s.hostMem (s.leaveQueue rest journal).afterLeave := fun journal =>
      have leaves := Leaves.leaveQueue queue journal
      { leaves.toKeeps.trans (Keeps.afterLeave _) with
        core := fun c => core_afterLeave (leaves.core c) (running_of_queue (s := s) c.queue (by simp [queue]))
        lanes := fun c => sound_afterLeave (leaves.lanes c) }
    dsimp only
    split
    · exact (left _).work (Work.beginClose ..)
    · exact left _

end Sys2Proof.Machine
end

section
/-! PROOFS. The work of the settings unit: the load, the run-start baseline set, and a reload (chapter 9). -/

namespace Sys2Proof.Machine

/-! ## The host part (R155, R171, R181) -/

theorem Keeps.enterFaulted (s : State) (why : FaultReason) : Keeps s s.hostMem (s.enterFaulted why) := by
  obtain ⟨run, -, -, pending, -, -, -, -, hostMem, -, -⟩ := enterFaulted_spec s why
  refine ⟨pending, ?_, ?_, ?_, ?_, ?_, fun i c => ?_, hostMem⟩ <;> rw [run]
  rw [BitVec.getLsbD_or, c, Bool.true_or]

theorem sound_enterFaulted {s : State} (why : FaultReason) (h : s.lanesSound) : (s.enterFaulted why).lanesSound := by
  obtain ⟨-, -, lanes, -⟩ := enterFaulted_spec s why
  intro l
  rw [lanes l]
  exact sound_dropCapture (sound_cut (h l))

theorem core_enterFaulted {s : State} (why : FaultReason) (free : s.dma.granted = none) (c : s.coreOk) : (s.enterFaulted why).coreOk := by
  obtain ⟨run, -, lanes, -, staging, -, unit, dma, -⟩ := enterFaulted_spec s why
  generalize s.enterFaulted why = t at *
  obtain ⟨fill, low, loadLow, -⟩ := c.queue
  exact {
    base := by rw [State.baseOk, run]; exact c.base
    fault := fun _ => by rw [dma]; exact free
    load := ⟨by rw [dma]; exact c.load.1, fun g granted => by rw [dma, free] at granted; simp at granted, fun r l _ _ => .inr (by rw [run])⟩
    queue := by
      refine ⟨by rw [staging]; exact fill, by rw [unit]; exact low, by rw [unit]; exact loadLow, fun device => ?_⟩
      rw [run] at device
      simp at device
    seq := c.seq.congr (by rw [staging]) (by rw [staging]) fun m => by rw [lanes m]; rfl }

/-- The flow low mark of a host part leaves the recovery step its room (R109, R116). -/
theorem loadHost_flowLow (data : List Byte) : (loadHost data).flowLow ≤ 72 := by
  obtain ⟨-, -, -, -, -, -, -, -, high, low, -⟩ := loadHost_inRange data
  omega

theorem Leaves.hostPart {s : State} (free : s.dma.granted = none) (data : List Byte) : Leaves s s.hostMem (s.hostPart data) := by
  unfold State.hostPart
  split
  · exact { Keeps.refl s with
      core := fun c =>
        { base := c.base
          fault := c.fault
          load := c.load
          queue := ⟨c.queue.1, c.queue.2.1, loadHost_flowLow data, c.queue.2.2.2⟩
          seq := c.seq }
      lanes := id }
  · have stopped : Work s { s with unit.load := .idle } := Work.blocks
    refine stopped.toLeaves.onward { Keeps.enterFaulted _ _ with core := fun c => core_enterFaulted _ free c, lanes := sound_enterFaulted _ }

/-! ## A lane record, and the delivery (R115, R155) -/

/-- From `s` to `t` what a command keeps is kept, and every lane unit is still as every step keeps it. -/
structure Carries (s t : State) : Prop extends Keeps s s.hostMem t where
  lanes : s.lanesSound → t.lanesSound

theorem Carries.trans {s t u : State} (a : Carries s t) (b : Carries t u) : Carries s u where
  toKeeps := by
    have both := a.toKeeps.trans b.toKeeps
    rwa [a.hostMem] at both
  lanes h := b.lanes (a.lanes h)

/-- Work goes on with a step of which only what it does with the machine's invariants is special. -/
theorem Leaves.carry {s t u : State} {mem : List Host.Cell} (a : Leaves s mem t) (b : Carries t u) (core : s.coreOk → u.coreOk) :
    Leaves s mem u where
  toKeeps := by
    have both := a.toKeeps.trans b.toKeeps
    rwa [a.hostMem] at both
  core := core
  lanes h := b.lanes (a.lanes h)

theorem Carries.forLanes (f : Lane → State → State) (h : ∀ l s, Carries s (f l s)) (s : State) : Carries s (s.forLanes f) := by
  have each : ∀ (ls : List Lane) (s : State), Carries s (ls.foldl (fun s l => f l s) s) := by
    intro ls
    induction ls with
    | nil => exact fun s => ⟨Keeps.refl s, id⟩
    | cons l ls ih => exact fun s => (h l s).trans (ih _)
  exact each allLanes s

theorem Keeps.modLane (s : State) (l : Lane) (f : LaneUnit → LaneUnit) : Keeps s s.hostMem (s.modLane l f) :=
  ⟨rfl, rfl, rfl, rfl, rfl, rfl, fun _ => id, rfl⟩

theorem Carries.modLane (s : State) (l : Lane) {f : LaneUnit → LaneUnit} (sound : (s.lane l).sound → (f (s.lane l)).sound) :
    Carries s (s.modLane l f) where
  toKeeps := Keeps.modLane s l f
  lanes h m := by
    rw [lane_modLane]
    split
    · next same =>
      subst same
      exact sound (h m)
    · exact h m

/-- The ports and the drawer of a lane at the delivery are events of that lane. -/
theorem LaneStep.loadParts (l : Lane) (s : State) : LaneStep (only l) s (s.loadParts l) := by
  have order (p : Port) (t : State) : LaneStep (only l) t (t.modPort l p ScanPort.enabled) := LaneStep.modPort fun h => h
  unfold State.loadParts
  exact ((LaneStep.reloadPorts l s).trans ((order .a _).trans (order .b _))).trans (LaneStep.reloadDrawer l _)

theorem Carries.configureLane (s : State) (l : Lane) (data : List Byte) : Carries s (s.configureLane l data) where
  toKeeps := by
    have parts := (LaneStep.loadParts l (s.modLane l fun u => u.configure data (s.heldDrawer l))).toLaneFrame.keeps
    exact (Keeps.modLane s l _).trans parts
  lanes h m := by
    by_cases same : m = l
    · rw [same]
      exact sound_configureLane (h l) data
    · rw [configureLane_eq, (LaneStep.loadParts l _).others m same, lane_modLane_ne _ _ same]
      exact h m

theorem Carries.deliverTo (records : List (List Byte)) (l : Lane) (s : State) : Carries s (deliverTo records l s) := by
  unfold Machine.deliverTo
  split
  · exact Carries.configureLane s l _
  · exact Carries.modLane s l sound_unconfigure

theorem Carries.deliver (s : State) : Carries s s.deliver := by
  rw [deliver_eq]
  have start : Carries s s.delivering := ⟨⟨rfl, rfl, rfl, rfl, rfl, rfl, fun _ => id, rfl⟩, id⟩
  exact start.trans (Carries.forLanes _ (Carries.deliverTo _) _)

theorem core_deliver {s : State} (loading : s.run.device = .loading) (c : s.coreOk) : s.deliver.coreOk := by
  have blocks := (deliver_spec (silent_of_idle (.inr (.inl loading)))).1
  have empty := c.queue.2.2.2 (.inr (.inl loading))
  rw [blocks]
  exact {
    base := c.base
    fault := c.fault
    load := c.load
    queue := ⟨c.queue.1, c.queue.2.2.1, c.queue.2.2.1, c.queue.2.2.2⟩
    seq := seqOk_empty empty }

/-- A lane record is read for LOADING alone (R155), so that the delivery finds no record waiting. -/
theorem Leaves.laneRecord {s : State} {g : Grant} {l : Lane} (granted : s.dma.granted = some g)
    (purpose : g.req.purpose = .laneSettingsRead l) (data : List Byte) :
    Leaves s s.complete.hostMem (s.complete.laneRecord l data) := by
  have done := Leaves.complete granted
  have load : ∀ m, Work m (m.withRecord data) := fun _ => Work.blocks
  by_cases more : l.val + 1 < s.complete.unit.loadHost.lanesInUse
  · rw [laneRecord_next data more]
    refine done.work ((load _).trans Work.blocks)
  · rw [laneRecord_last data (Nat.not_lt.1 more)]
    have carries := Carries.deliver (s.complete.withRecord data)
    have first := done.work (load _)
    exact first.carry carries fun c =>
      core_deliver ((congrArg RunControl.device (complete_run s)).trans ((c.load.2.1 g granted).2.2 l purpose)) (first.core c)

/-! ## The end of the load, with the run-start baseline set (R18, R112, R172) -/

/-- RUNNING has been entered, and the baseline set is to be staged. -/
def State.beginRun (s : State) : State := { s with run.device := .running, unit.load := .idle, unit.devRewrite := true }

/-- The walker's record of an earlier run is gone (R136). -/
def State.freshWalk (s : State) : State :=
  { s with walker := { s.walker with stale := none, reread := false, rehead := false, recheck := none } }

theorem enterRunning_eq (s : State) : s.enterRunning = s.beginRun.stageBaseline.startFetch.freshWalk.walkerFetch false := by
  unfold State.enterRunning State.freshWalk State.beginRun
  dsimp only

theorem Work.startChains (s : State) : Work s (s.startFetch.freshWalk.walkerFetch false) := by
  have fresh : Work s.startFetch s.startFetch.freshWalk := by
    generalize s.startFetch = t
    exact Work.blocks
  exact ((Work.startFetch s).trans fresh).trans (Work.walkerFetch _ false)

theorem stageDevice_eq (s : State) (b : RecordBody) : ∃ hold, s.stageDevice b = { s with
    staging.queue := s.staging.queue ++ [⟨b, none, s.run.clock, s.staging.devSeq⟩]
    staging.devSeq := s.staging.devSeq + 1
    staging.hold := hold } := by
  unfold State.stageDevice State.testHigh
  split
  · exact ⟨true, rfl⟩
  · exact ⟨s.staging.hold, rfl⟩

theorem Carries.stageDevice (s : State) (b : RecordBody) : Carries s (s.stageDevice b) := by
  obtain ⟨hold, eq⟩ := stageDevice_eq s b
  rw [eq]
  exact ⟨⟨rfl, rfl, rfl, rfl, rfl, rfl, fun _ => id, rfl⟩, id⟩

theorem core_stageDevice {s : State} (b : RecordBody) (c : s.coreOk) (place : s.staging.queue.length < 96)
    (runs : s.run.device ≠ .resetIdle ∧ s.run.device ≠ .loading ∧ s.run.device ≠ .stopped) : (s.stageDevice b).coreOk := by
  obtain ⟨hold, eq⟩ := stageDevice_eq s b
  have seq := stageDevice_seqOk c.seq b
  rw [eq] at seq ⊢
  exact {
    base := c.base
    fault := c.fault
    load := c.load
    queue := ⟨by simpa using place, c.queue.2.1, c.queue.2.2.1, fun device => absurd device (by simp [runs])⟩
    seq := seq }

theorem Carries.stageBaseline (s : State) : Carries s s.stageBaseline := by
  obtain ⟨stages, lanes⟩ := stageBaseline_spec s
  have device := Carries.stageDevice s (.runStart s.run.runCount)
  refine device.trans ⟨stages.keeps, fun c l => ?_⟩
  obtain ⟨hold, eq⟩ := stageDevice_eq s (.runStart s.run.runCount)
  have same : (s.stageDevice (.runStart s.run.runCount)).lane l = s.lane l := by rw [eq]; rfl
  have sound := c l
  rw [same] at sound
  exact sound_of_seq_losses (losses := (s.lane l).losses) sound (lanes l)

theorem core_stageBaseline {s : State} (c : s.coreOk) (empty : s.staging.queue = []) (device : s.run.device = .running) :
    s.stageBaseline.coreOk := by
  have runs : s.run.device ≠ .resetIdle ∧ s.run.device ≠ .loading ∧ s.run.device ≠ .stopped := by simp [device]
  have first := core_stageDevice (.runStart s.run.runCount) c (by simp [empty]) runs
  obtain ⟨hold, eq⟩ := stageDevice_eq s (.runStart s.run.runCount)
  have few := stamped_flatMap_length s (fun l => (s.lane l).baselineRecords) (n := 3) fun l => baselineRecords_few _
  refine (stageBaseline_spec s).1.core first ?_ (by rw [eq]; exact runs)
  have one : (s.stageDevice (.runStart s.run.runCount)).staging.queue.length = 1 := by rw [eq]; simp [empty]
  omega

theorem Carries.enterRunning (s : State) : Carries s s.enterRunning := by
  rw [enterRunning_eq]
  have begun : Carries s s.beginRun := ⟨⟨rfl, rfl, rfl, rfl, rfl, rfl, fun _ => id, rfl⟩, id⟩
  have chains := Work.startChains s.beginRun.stageBaseline
  exact (begun.trans (Carries.stageBaseline _)).trans ⟨chains.toKeeps, chains.lanes⟩

/-- The load has nothing left to ask for, so that no read of a lane record waits when RUNNING is entered. -/
theorem core_enterRunning {s : State} (c : s.coreOk) (loading : s.run.device = .loading) (free : s.dma.granted = none)
    (none : s.dma.waitS = none) : s.enterRunning.coreOk := by
  have empty := c.queue.2.2.2 (.inr (.inl loading))
  have begun : s.beginRun.coreOk :=
    { base := c.base
      fault := fun _ => free
      load := ⟨c.load.1, fun g granted => absurd (free.symm.trans granted) (by simp),
        fun r l waits => absurd (none.symm.trans waits) (by simp)⟩
      queue := ⟨c.queue.1, c.queue.2.1, c.queue.2.2.1, fun _ => empty⟩
      seq := c.seq }
  rw [enterRunning_eq]
  exact (Work.startChains _).core (core_stageBaseline begun empty rfl)

theorem owner_of_status {p : Purpose} (h : completes .statusWriteComplete p) : p.owner = .settings := by
  cases p
  case deviceStatusWrite | laneStatusWrite => rfl
  all_goals exact absurd h (fun f : False => f)

/-- A status write is the settings unit's own, which has no other request (R167). -/
theorem Leaves.statusWritten {s : State} {g : Grant} (granted : s.dma.granted = some g)
    (purpose : completes .statusWriteComplete g.req.purpose) : Leaves s s.complete.hostMem s.complete.statusWritten := by
  have done := Leaves.complete granted
  have free : s.complete.dma.granted = none ∧ s.complete.dma.waitS = s.dma.waitS := by
    rw [complete_eq granted]
    exact ⟨rfl, rfl⟩
  generalize s.complete = m at *
  unfold State.statusWritten
  split
  · next loading _ =>
    refine done.carry (Carries.enterRunning m) fun c => ?_
    obtain ⟨owner, alone, -⟩ := c.load.2.1 g granted
    have who : g.who = .settings := owner.symm.trans (owner_of_status purpose)
    exact core_enterRunning (done.core c) loading free.1 (free.2.trans (alone who))
  · exact done

/-! ## A reload (R147, R160) -/

/-- The keys and the receivers of a lane unit are as every step keeps them. -/
structure LaneUnit.keyed (u : LaneUnit) : Prop where
  keys : u.keysOk
  once : u.keysOnce
  receivers : u.receiversOk

theorem LaneUnit.keyed.changed {u : LaneUnit} (h : u.keyed) (new : LaneState) (capture : Bool) : (u.changed new capture).keyed := by
  obtain ⟨-, -, -, -, -, -, -, settings⟩ := changed_fields u new capture
  refine ⟨?_, ?_, changed_receiversOk new capture h.receivers⟩
  · rw [LaneUnit.keysOk, changed_kb, settings]
    split
    · exact ⟨fun _ => ⟨rfl, rfl⟩, Nat.zero_le _⟩
    · split
      · exact h.keys
      · exact ⟨fun _ => ⟨rfl, rfl⟩, Nat.zero_le _⟩
  · rw [LaneUnit.keysOnce, changed_kb]
    split
    · exact List.nodup_nil
    · split
      · exact h.once
      · exact List.nodup_nil

theorem refitted_keyed {u : LaneUnit} (old : LaneSettings) (idle : u.kb.mode ≠ .scanning → u.kb.image = [] ∧ u.kb.blocked = [])
    (once : u.keysOnce) : (u.refitted old).keyed := by
  obtain ⟨-, -, settings, -, -, -, kb, -⟩ := refitted_fields u old
  refine ⟨?_, ?_, refitted_receiversOk u old⟩
  · rw [LaneUnit.keysOk, settings, kb]
    split
    · exact (reloadedKb_keys old idle once).1
    · next other =>
      obtain ⟨-, -, -, -, -, -, -, same⟩ := changed_fields u u.enabled (u.enabled == .active)
      have keys := changed_keysOk other idle
      rw [LaneUnit.keysOk, same] at keys
      exact keys
  · rw [LaneUnit.keysOnce, kb]
    split
    · exact (reloadedKb_keys old idle once).2
    · next other =>
      have reenabled := reenabled_once once
      rw [LaneUnit.reenabled, if_neg other] at reenabled
      exact reenabled

theorem reloaded_keyed {u : LaneUnit} (old : LaneSettings) (now : Word32) (inRun : Bool)
    (idle : u.kb.mode ≠ .scanning → u.kb.image = [] ∧ u.kb.blocked = []) (once : u.keysOnce) : (u.reloaded old now inRun).keyed := by
  obtain ⟨keys, once, receivers⟩ := refitted_keyed old idle once
  by_cases wakes : u.reloadWakes now inRun
  · rw [reloaded_woken old wakes]
    exact LaneUnit.keyed.changed (u := { u.refitted old with drawer := drawerAfter u.drawer u.settings.drawer u.drawerRuns now })
      ⟨keys, once, receivers⟩ .active false
  · rw [reloaded_still old wakes]
    exact ⟨keys, once, receivers⟩

theorem sound_deliverReload {s : State} {l : Lane} (h : (s.lane l).sound) (data : List Byte) :
    ((s.deliverReload l data).lane l).sound := by
  obtain ⟨booked, -, step⟩ := deliverReload_spec s l data
  obtain ⟨⟨drawer, portA, portB, idle, few⟩, ⟨once, -⟩, settings⟩ := h
  have keyed := reloaded_keyed (u := (s.lane l).takeSettings data (s.heldDrawer l)) (s.lane l).settings s.run.clock s.inRun idle once
  generalize LaneUnit.reloaded _ _ _ _ = v at booked keyed
  have started : (s.modLane l fun u => u.takeSettings data (s.heldDrawer l)).lane l = (s.lane l).takeSettings data (s.heldDrawer l) :=
    lane_modLane_same ..
  obtain ⟨drawer', portA', portB', -⟩ := step.keepsUpTo l (s.lane l).settings.rollover (by
    rw [started]
    exact ⟨drawer, portA, portB, idle, Nat.le_trans few (Nat.le_max_left _ _)⟩)
  obtain ⟨configured, range, -, -, store⟩ := step.settings l
  rw [started] at configured range store
  generalize (s.deliverReload l data).lane l = w at *
  have keys : w.keysOk := by rw [booked.1]; exact keyed.keys
  have fit : w.fit := LaneUnit.fit.booked (u := v) ⟨keyed.once, keyed.receivers⟩ booked
  exact ⟨⟨drawer', portA', portB', keys⟩, fit, (settingsOk_taken data (heldDrawer_inRange settings)).congr configured range store⟩

theorem Leaves.reloadRead (s : State) (l : Lane) (data : List Byte) : Leaves s s.hostMem (s.reloadRead l data) := by
  have delivered : Leaves s s.hostMem (s.deliverReload l data) := by
    obtain ⟨-, -, step⟩ := deliverReload_spec s l data
    have taken := Keeps.modLane s l fun u => u.takeSettings data (s.heldDrawer l)
    refine { taken.trans step.toLaneFrame.keeps with core := fun c => step.toLaneFrame.core ?_, lanes := fun h m => ?_ }
    · exact {
        base := c.base
        fault := c.fault
        load := c.load.same rfl rfl
        queue := c.queue
        seq := c.seq.congr rfl rfl fun m => by rw [lane_modLane]; split <;> rfl }
    · by_cases same : m = l
      · rw [same]
        exact sound_deliverReload (h l) data
      · rw [step.others m same, lane_modLane_ne _ _ same]
        exact h m
  rw [reloadRead_parts]
  generalize State.deliverReload s l data = t at delivered ⊢
  exact delivered.work Work.blocks

theorem Work.echoWritten (s : State) : Work s s.echoWritten := by
  unfold State.echoWritten
  split
  · exact Work.trans Work.blocks (Work.answer _ _)
  · exact Work.refl s

end Sys2Proof.Machine
end

section
/-! PROOFS. The twenty-two events of a lane keep to their lane (R1, R3, R100 to R103). -/

namespace Sys2Proof.Machine

/-- From `s` to `t` lane `l` has had an event: it has kept to its lane, and what a step keeps of a lane unit is kept. -/
structure LaneWork (l : Lane) (s t : State) : Prop where
  step : LaneStep (only l) s t
  fits : Fits l s t

theorem LaneWork.work {l : Lane} {s t : State} (h : LaneWork l s t) : Work s t := Work.lane h.step h.fits

theorem LaneWork.trans {l : Lane} {s t u : State} (a : LaneWork l s t) (b : LaneWork l t u) : LaneWork l s u :=
  ⟨a.step.trans b.step, a.fits.trans b.fits⟩

theorem LaneWork.offer (l : Lane) (s : State) (b : RecordBody) : LaneWork l s (s.offer l b) := ⟨LaneStep.offer s b, Fits.offer l s b⟩

theorem LaneWork.count (l : Lane) (s : State) (c : Counter) : LaneWork l s (s.count l c) := ⟨LaneStep.count s c, Fits.count l s c⟩

theorem LaneWork.modDrawer {l : Lane} {s : State} {f : Drawer → Drawer} (ok : (s.lane l).drawer.ok → (f (s.lane l).drawer).ok) :
    LaneWork l s (s.modDrawer l f) := ⟨LaneStep.modDrawer ok, Fits.modDrawer l s f⟩

theorem LaneWork.drawerEvent {l : Lane} {s : State} {f : Drawer → Drawer} {cause : DrawerCause} {value : Word32}
    (ok : (s.lane l).drawer.ok → (f (s.lane l).drawer).ok) : LaneWork l s (s.drawerEvent l f cause value) :=
  ⟨LaneStep.drawerEvent ok, Fits.drawerEvent l s f cause value⟩

/-! ## The keylock and the keyboard (chapters 1 and 2) -/

theorem LaneWork.setContacts (l : Lane) (s : State) (contacts : BitVec 4) : LaneWork l s (s.modLane l fun u => u.setContacts contacts) where
  step := LaneStep.modLane (setContacts_same _ _).1 (setContacts_same _ _).2
  fits := Fits.modLane (setContacts_fit contacts)

theorem LaneWork.keylockIndeterminate (l : Lane) (s : State) : LaneWork l s (s.keylockIndeterminate l) where
  step := by
    unfold State.keylockIndeterminate
    have timer : LaneStep (only l) s (s.modKeylock l fun k => { k with indet := none }) := LaneStep.modKeylock
    dsimp only
    split
    · exact timer
    · exact timer.trans (LaneStep.adopt l _ .lock true)
  fits := Fits.keylockIndeterminate l s

theorem LaneWork.pass {l : Lane} {s : State} (raw : BitVec 128) (scanning : (s.lane l).kb.mode = .scanning) :
    LaneWork l s (s.runPass l raw) := ⟨(KeyStep.runPass raw scanning).1, Fits.runPass l s raw⟩

theorem LaneWork.dropCapture (l : Lane) (s : State) : LaneWork l s (s.modLane l LaneUnit.dropCapture) :=
  ⟨LaneStep.modLane (dropCapture_keys _).1 (dropCapture_keys _).2, Fits.modLane fun h => h⟩

theorem LaneWork.examine (l : Lane) (s : State) (active : Bool) : LaneWork l s (s.modLane l fun u => u.examine active) where
  step := LaneStep.modLane (examine_keys _ _).1 (examine_keys _ _).2
  fits := Fits.modLane (examine_fit active)

theorem LaneWork.detectKey (l : Lane) (s : State) : LaneWork l s (s.detectKey l) where
  step := by
    have woken := LaneStep.wake l s .key
    unfold State.detectKey
    dsimp only
    split
    · exact woken.trans (LaneStep.modKb fun _ h => h)
    · exact woken
  fits := Fits.detectKey l s

/-! ## The scanner ports (chapter 3) -/

theorem LaneWork.modPort {l : Lane} {s : State} (p : Port) {f : ScanPort → ScanPort}
    (ok : ((s.lane l).port p).ok → (f ((s.lane l).port p)).ok) (fits : Fits l s (s.modPort l p f)) : LaneWork l s (s.modPort l p f) :=
  ⟨LaneStep.modPort ok, fits⟩

theorem LaneWork.modPort_keep {l : Lane} {s : State} (p : Port) {f : ScanPort → ScanPort}
    (ok : ((s.lane l).port p).ok → (f ((s.lane l).port p)).ok) (on : ∀ q, (f q).on = q.on)
    (frame : ∀ q, (f q).frame = q.frame ∨ (f q).frame = .waiting) : LaneWork l s (s.modPort l p f) :=
  .modPort p ok (Fits.modPort_keep p on frame)

/-! ## The drawer (chapter 5) -/

theorem LaneWork.settleSensor (l : Lane) (s : State) : LaneWork l s (s.settleSensor l) where
  step := by
    unfold State.settleSensor
    dsimp only
    split
    · exact (LaneStep.settleSensor l s _).trans (LaneStep.sensorOpen l _)
    · exact (LaneStep.settleSensor l s _).trans (LaneStep.sensorClosed l _)
  fits := Fits.settleSensor l s

theorem Drawer.ok.still {d e : Drawer} (h : d.ok) (off : d.cond ≠ .kicking) (cond : e.cond ≠ .kicking) (kick : e.kickOut = d.kickOut)
    (history : e.history = d.history) (fails : e.failCount = d.failCount) : e.ok :=
  drawer_ok_of cond (kick.trans (h.off off)) (by rw [history]; exact h.2.2.1) (by rw [fails]; exact h.2.2.2)

theorem LaneWork.alertMark (l : Lane) (s : State) : LaneWork l s (s.alertMark l) := by
  unfold State.alertMark
  dsimp only
  split
  · next isOpen => exact .drawerEvent fun h => h.still (by simp [isOpen]) (by simp) rfl rfl rfl
  · exact .modDrawer fun h => h

/-- The kick ends in JAMMED (R81). -/
theorem jammed_ok {d : Drawer} (h : d.ok) : ({ d.endKick with cond := .jammed } : Drawer).ok :=
  drawer_ok_of (by simp) rfl h.2.2.1 h.2.2.2

theorem LaneWork.jam (l : Lane) (s : State) : LaneWork l s (s.jam l) :=
  (LaneWork.drawerEvent jammed_ok).trans (LaneWork.count l _ .jams)

theorem pulseEnd_ok {d : Drawer} (h : d.ok) : ({ d with kickOut := false, pulse := none } : Drawer).ok :=
  ⟨h.1, fun on => absurd on (by simp), h.2.2⟩

theorem LaneWork.measureEnd (l : Lane) (s : State) (followed : Bool) :
    LaneWork l s ((s.modDrawer l fun d => d.endMeasure (s.lane l).settings.drawer).testResult l followed) :=
  (LaneWork.modDrawer (endMeasure_ok _)).trans ⟨LaneStep.testResult l _ followed, Fits.testResult l _ followed⟩

/-! ## Every event of a lane -/

theorem laneWork_of_effect {s m : State} {c : Instr} {ends : Bool} {l : Lane} (effect : Effect s c m ends) (lane : laneOf c = some l) :
    LaneWork l s m := by
  cases effect
  case idleTimer => cases lane; exact ⟨LaneStep.changeLane l s _ _ _, Fits.changeLane l s _ _ _⟩
  case keylockValid => cases lane; exact .setContacts l s _
  case keylockInvalid => cases lane; exact .setContacts l s _
  case keylockSettle => cases lane; exact ⟨LaneStep.adopt l s _ _, Fits.adopt l s _ _⟩
  case keylockIndeterminate => cases lane; exact .keylockIndeterminate l s
  case pass scanning _ => cases lane; exact .pass _ scanning
  case captureEnd => cases lane; exact (LaneWork.dropCapture l s).trans (.offer l _ _)
  case typematic => cases lane; exact ⟨LaneStep.repeatKey l s _, Fits.repeatKey l s _⟩
  case examination => cases lane; exact .examine l s _
  case detection => cases lane; exact .detectKey l s
  case character hears => cases lane; exact ⟨LaneStep.receive l s _ _, Fits.receive l s _ hears⟩
  case gapAssembling => cases lane; exact ⟨LaneStep.fragment l s _, Fits.fragment l s _⟩
  case gapDiscarding => cases lane; exact .modPort _ (fun _ => toWaiting_ok _) (Fits.toWaiting l s _)
  case gapWaiting => cases lane; exact .modPort_keep _ (fun h => h) (fun _ => rfl) fun _ => .inl rfl
  case toneStep => cases lane; exact .modPort _ toneStep_ok (Fits.toneStep l s _)
  case lineHigh => cases lane; exact .modPort_keep _ (fun h => h) (fun _ => rfl) fun _ => .inl rfl
  case sensorChange => cases lane; exact .modDrawer (rawChange_ok _ _)
  case sensorSettle => cases lane; exact .settleSensor l s
  case pulseEnd => cases lane; exact .modDrawer pulseEnd_ok
  case confirm => cases lane; exact .jam l s
  case alertMark => cases lane; exact .alertMark l s
  case faultMark => cases lane; exact .drawerEvent fun h => h
  case presence => cases lane; exact .modDrawer fun h => h
  case measureEnd => cases lane; exact .measureEnd l s _
  case order o _ => cases o <;> exact absurd lane (by simp [Order.command, laneOf])
  all_goals exact absurd lane (by simp [laneOf])

/-- Settles O54: an event of a lane changes nothing, or is that lane's own work and what the end of the event does. -/
theorem laneEventFrame : Obligations.LaneEventFrame := by
  unfold Obligations.LaneEventFrame
  intro c l s t lane ran
  obtain rfl | ⟨m, ends, effect, rfl⟩ := leads_of_exec ran
  · exact ⟨t, LaneFrame.refl _ t, SettleFrame.refl t⟩
  · have work := (laneWork_of_effect effect lane).step.toLaneFrame
    cases ends with
    | true => exact ⟨m, work, settle_frame m⟩
    | false => exact ⟨m, work, SettleFrame.refl m⟩

end Sys2Proof.Machine
end

section
/-! PROOFS. What every command keeps of the machine and of the lanes (R102, R103, R109, R113 to R115, R155, R168, R176, R181): the orders
and HALT are work as the events of a lane are; the resets, RUN, an abort and the two registers are seen to one by one. -/

namespace Sys2Proof.Machine

/-! ## The orders (chapter 8.3) -/

theorem LaneWork.answer {l : Lane} {s t : State} (h : LaneWork l s t) (a : Answer) : Work s (t.answer a) := h.work.trans (Work.answer t a)

theorem Work.takeKick (s : State) (l : Lane) : Work s (s.takeKick l) := by
  unfold State.takeKick
  dsimp only
  split
  · exact Work.answer s _
  · next accepted =>
    have unlatched := (kickable_of_kickRefusal_none accepted).1
    exact ((LaneWork.drawerEvent (kick_ok _ _ unlatched)).trans (LaneWork.count l _ .kicks)).answer _

theorem Work.takeLockout (s : State) (l : Lane) : Work s (s.takeLockout l) := by
  unfold State.takeLockout
  dsimp only
  split
  · exact Work.answer s _
  · exact (LaneWork.drawerEvent lockOut_ok).answer _

theorem Work.takeRelease (s : State) (l : Lane) : Work s (s.takeRelease l) := by
  unfold State.takeRelease
  dsimp only
  split
  · exact Work.answer s _
  · exact Work.answer s _
  all_goals
    split
    · exact (LaneWork.drawerEvent released_ok).answer _
    · exact Work.answer s _

theorem Work.takeScannerSet (s : State) (l : Lane) (p : Port) (enable : Bool) : Work s (s.takeScannerSet l p enable) := by
  have flag (on : Bool) : LaneWork l s (s.modPort l p fun q => { q with orderEnable := on }) :=
    .modPort_keep p (fun h => h) (fun _ => rfl) fun _ => .inl rfl
  unfold State.takeScannerSet
  dsimp only
  split
  · split
    · exact (flag true).answer _
    · exact Work.answer s _
  · have cut := (flag false).trans ⟨LaneStep.cutFrame l _ p, Fits.cutFrame l _ p⟩
    exact (cut.trans ⟨LaneStep.stopTone l _ p, Fits.stopTone l _ p⟩).answer _

theorem Work.takeScanConfirm (s : State) (l : Lane) (p : Port) (bad : Bool) : Work s (s.takeScanConfirm l p bad) := by
  unfold State.takeScanConfirm
  dsimp only
  split
  · exact Work.answer s _
  · split
    · exact Work.answer s _
    · exact (LaneWork.modPort p (fun h => h) (Fits.startTone l s p _ bad)).answer _

theorem Work.takeLaneState (s : State) (l : Lane) (target : Target) : Work s (s.takeLaneState l target) := by
  unfold State.takeLaneState
  dsimp only
  split
  · exact Work.answer s _
  · split
    · exact Work.answer s _
    · exact LaneWork.answer ⟨LaneStep.changeLane l s _ _ _, Fits.changeLane l s _ _ _⟩ _

theorem LaneWork.clearCounters (l : Lane) (s : State) : LaneWork l s (s.modLane l LaneUnit.clearCounters) :=
  ⟨LaneStep.modLane ⟨rfl, rfl, rfl, rfl, rfl, rfl⟩ fun _ h => h, Fits.modLane fun h => h⟩

theorem Work.takeCountersRead (s : State) (l : Lane) (clear : Bool) : Work s (s.takeCountersRead l clear) := by
  unfold State.takeCountersRead
  dsimp only
  split
  · exact (LaneWork.clearCounters l s).answer _
  · exact Work.answer s _

theorem Work.takeFlush (s : State) : Work s s.takeFlush := by
  unfold State.takeFlush
  split
  · exact Work.blocks
  · split
    · exact Work.blocks
    · split
      · exact Work.answer s _
      · exact (Work.trans Work.blocks (Work.beginClose _ _ _)).trans (Work.wait _)
  · exact Work.answer s _

/-- A MARK enters only where it has its place (R111). -/
theorem Work.enterMark {s : State} (place : s.markEnters = true) (tag : Word32) : Work s (s.enterMark tag) := by
  simp only [State.markEnters, Bool.and_eq_true, decide_eq_true_eq] at place
  obtain ⟨fill, runs⟩ := place
  have device := (inRun_iff s).1 runs
  have staged : Work s (s.stageDevice (.mark tag)) :=
    { Carries.stageDevice s (.mark tag) with
      core := fun c => core_stageDevice _ c fill (by rcases device with e | e <;> simp [e])
      lanes := (Carries.stageDevice s (.mark tag)).lanes
      faulted := fun fault => by rcases device with e | e <;> simp [e] at fault }
  exact staged.trans (Work.answer _ _)

theorem Work.takeJournalMark (s : State) (tag : Word32) : Work s (s.takeJournalMark tag) := by
  unfold State.takeJournalMark
  split
  · next place => exact Work.enterMark place tag
  · exact Work.trans (t := { s with staging.markWaiting := some tag }) Work.blocks (Work.wait _)

/-- The owner of an order works on it as an event does. -/
theorem Work.take (s : State) (o : Order) : Work s (s.take o) := by
  cases o with
  | drawerKick l => exact Work.takeKick s l
  | drawerLockout l => exact Work.takeLockout s l
  | drawerRelease l => exact Work.takeRelease s l
  | scannerSet l p enable => exact Work.takeScannerSet s l p enable
  | scanConfirm l p bad => exact Work.takeScanConfirm s l p bad
  | keyImageRead l => exact (LaneWork.offer l s _).answer _
  | laneReload l => exact Work.trans (t := { s with unit.reload := some (.read l) }) Work.blocks (Work.wait _)
  | laneState l target => exact Work.takeLaneState s l target
  | countersRead l clear => exact Work.takeCountersRead s l clear
  | flush => exact Work.takeFlush s
  | policyLock => exact Work.trans Work.blocks (Work.answer _ _)
  | journalMark tag => exact Work.takeJournalMark s tag

/-! ## HALT (R133, R173) -/

/-- The intake has stopped. -/
def State.beginStop (s : State) : State := { s with run.device := .stopping, unit.devRewrite := true }

theorem Work.beginStop {s : State} (running : s.run.device = .running) : Work s s.beginStop where
  pending := rfl
  clock := rfl
  lastReset := rfl
  runCount := rfl
  areaLow := rfl
  areaHigh := rfl
  causes _ := id
  hostMem := rfl
  core c :=
    { base := c.base
      fault := fun device => absurd device (by simp [State.beginStop])
      load := by
        obtain ⟨waiting, granted, unit⟩ := c.load
        refine ⟨waiting, fun g e => ?_, fun r l e purpose => ?_⟩
        · obtain ⟨owner, alone, loading⟩ := granted g e
          exact ⟨owner, alone, fun l p => absurd (loading l p) (by simp [running])⟩
        · exact absurd (unit r l e purpose) (by simp [running])
      queue := ⟨c.queue.1, c.queue.2.1, c.queue.2.2.1, fun device => absurd device (by simp [State.beginStop])⟩
      seq := c.seq }
  lanes := id
  faulted device := by simp [running] at device

theorem Work.forLanes (f : Lane → State → State) (h : ∀ l s, Work s (f l s)) (s : State) : Work s (s.forLanes f) := by
  have each : ∀ (ls : List Lane) (s : State), Work s (ls.foldl (fun s l => f l s) s) := by
    intro ls
    induction ls with
    | nil => exact Work.refl
    | cons l ls ih => exact fun s => (h l s).trans (ih _)
  exact each allLanes s

theorem Work.cutAll (s : State) : Work s s.cutAll :=
  Work.forLanes _ (fun l s =>
    have cut (p : Port) (t : State) : LaneWork l t (t.cutFrame l p) := ⟨LaneStep.cutFrame l t p, Fits.cutFrame l t p⟩
    ((cut .a s).trans (cut .b _)).work) s

theorem Work.stopRun {s : State} (running : s.run.device = .running) : Work s s.stopRun :=
  ((Work.beginStop running).trans (Work.cutAll _)).trans (Work.haltIdleWalker _)

end Sys2Proof.Machine
end

section
/-! PROOFS. The invariants that every step keeps (O57, O59), what run control keeps (O13), and what changes host memory (O56). -/

namespace Sys2Proof.Machine

/-! ## What a command has done -/

/-- The command `c` has taken effect on `s`, and its own work has left `m`: it is one of the resets, RUN, an abort, or an access to a
register; or it has completed a request and worked on; or it is any other, and has worked. -/
inductive Done (s : State) (c : Instr) (m : State) : Prop
  | reset (kind : ResetKind) (is : isReset c = true) (eq : m = s.resetAs kind)
  | run (is : c = .run) (device : s.run.device = .resetIdle ∨ s.run.device = .stopped) (eq : m = s.startRun)
  | areaWrite (high : Bool) (v : Word32) (bytes : BitVec 4) (is : c = .areaWrite high v bytes) (eq : m = s.writeArea high v bytes)
  | causeRead (bytes : BitVec 4) (is : c = .causeRead bytes) (eq : m = s.readCause bytes)
  | abort (g : Grant) (granted : s.dma.granted = some g) (is : c = .dmaAbort) (eq : m = s.linkAbort)
  | completed (g : Grant) (granted : s.dma.granted = some g) (of : completes c g.req.purpose) (leaves : Leaves s s.complete.hostMem m)
  | worked (other : ∀ p, ¬completes c p) (work : Work s m)

theorem completes_of_purpose {c : Instr} {g : Grant} {p : Purpose} (purpose : g.req.purpose = p) (of : completes c p) :
    completes c g.req.purpose := by
  rw [purpose]
  exact of

theorem not_completes_of_laneOf {c : Instr} {l : Lane} (lane : laneOf c = some l) (p : Purpose) : ¬completes c p := by
  cases c <;> simp only [laneOf, reduceCtorEq] at lane <;> exact id

theorem not_completes_of_order (o : Order) (p : Purpose) : ¬completes o.command p := by
  cases o <;> exact id

theorem Effect.done {s m : State} {c : Instr} {ends : Bool} (effect : Effect s c m ends) : Done s c m := by
  by_cases event : ∃ l, laneOf c = some l
  · obtain ⟨l, lane⟩ := event
    exact .worked (not_completes_of_laneOf lane) (laneWork_of_effect effect lane).work
  cases effect with
  | powerOnReset => exact .reset .powerOn rfl rfl
  | linkReset => exact .reset .link rfl rfl
  | softReset => exact .reset .soft rfl rfl
  | run device => exact .run rfl device rfl
  | halt running => exact .worked (fun _ => id) (Work.stopRun running)
  | reheadOrders => exact .worked (fun _ => id) (Work.reheadWalker s)
  | reheadPages => exact .worked (fun _ => id) (Work.reheadJournal s)
  | notify => exact .worked (fun _ => id) ((Work.notifyWalker s).trans (Work.notifyJournal _))
  | causeRead bytes => exact .causeRead bytes rfl rfl
  | areaWrite high v bytes => exact .areaWrite high v bytes rfl rfl
  | dmaAbort granted => exact .abort _ granted rfl rfl
  | hostPart granted purpose data =>
    have free : s.complete.dma.granted = none := by rw [complete_eq granted]
    exact .completed _ granted (completes_of_purpose purpose trivial) (Leaves.completing granted (Leaves.hostPart free data))
  | laneRecord granted purpose data =>
    exact .completed _ granted (completes_of_purpose purpose trivial) (Leaves.laneRecord granted purpose data)
  | statusWrite granted purpose => exact .completed _ granted purpose (Leaves.statusWritten granted purpose)
  | reloadRead granted purpose data =>
    exact .completed _ granted (completes_of_purpose purpose trivial) (Leaves.completing granted (Leaves.reloadRead _ _ data))
  | reloadEcho granted purpose =>
    exact .completed _ granted (completes_of_purpose purpose trivial) (Leaves.completing granted (Work.echoWritten _).toLeaves)
  | pageLink granted purpose link =>
    exact .completed _ granted (completes_of_purpose purpose trivial) (Leaves.completing granted (Work.pageLink _ link).toLeaves)
  | pageHeader granted purpose st =>
    exact .completed _ granted (completes_of_purpose purpose trivial) (Leaves.completing granted (Work.pageHeader _ _ st).toLeaves)
  | recordWrite granted purpose =>
    exact .completed _ granted (completes_of_purpose purpose trivial) (Leaves.completing granted (Leaves.recordWritten _))
  | headerBody granted purpose =>
    exact .completed _ granted (completes_of_purpose purpose trivial) (Leaves.completing granted (Work.bodyWritten _).toLeaves)
  | closedMarker granted purpose =>
    exact .completed _ granted (completes_of_purpose purpose trivial) (Leaves.completing granted (Work.pageClosed _).toLeaves)
  | linger => exact .worked (fun _ => id) (Work.lingerExpired s)
  | journalRecheck => exact .worked (fun _ => id) (Work.journalRecheck s)
  | orderLink granted purpose link =>
    exact .completed _ granted (completes_of_purpose purpose trivial) (Leaves.completing granted (Work.orderLink _ link).toLeaves)
  | slipRead granted purpose data =>
    exact .completed _ granted (completes_of_purpose purpose trivial) (Leaves.completing granted (Work.slipRead _ _ data).toLeaves)
  | taken granted purpose =>
    exact .completed _ granted (completes_of_purpose purpose trivial) (Leaves.completing granted (Work.takenWritten _).toLeaves)
  | slipBody granted purpose =>
    exact .completed _ granted (completes_of_purpose purpose trivial) (Leaves.completing granted (Work.slipBodyWritten _).toLeaves)
  | slipState granted purpose =>
    exact .completed _ granted (completes_of_purpose purpose trivial) (Leaves.completing granted (Work.slipFinished _).toLeaves)
  | walkerRecheck => exact .worked (fun _ => id) (Work.walkerRecheck s)
  | order o => exact .worked (not_completes_of_order o) (Work.take s o)
  | markEntry _ place =>
    have taken : Work s { s with staging.markWaiting := none } := Work.blocks
    exact .worked (fun _ => id) (taken.trans (Work.enterMark (s := { s with staging.markWaiting := none }) place _))
  | _ => exact absurd ⟨_, rfl⟩ event

/-! ## The resets, RUN and an abort -/

theorem baseOk_masked (v : Word32) : v &&& 0xFFFFF000 &&& 0xFFF = 0 := by
  rw [BitVec.and_assoc]
  exact BitVec.and_zero

theorem afterReset_area (r : RunControl) (kind : ResetKind) :
    (r.afterReset kind).areaLow = 0 ∨ (r.afterReset kind).areaLow = r.areaLow := by
  cases kind with
  | powerOn | link => exact .inl rfl
  | soft => exact .inr rfl

theorem afterReset_flowLow (u : SettingsUnit) (kind : ResetKind) :
    (u.afterReset kind).host.flowLow = 0 ∧ (u.afterReset kind).loadHost.flowLow = 0 := by
  cases kind <;> exact ⟨rfl, rfl⟩

theorem resetAs_device (s : State) (kind : ResetKind) : (s.resetAs kind).run.device = .resetIdle := by cases kind <;> rfl

theorem core_resetAs {s : State} (kind : ResetKind) (c : s.coreOk) : (s.resetAs kind).coreOk where
  base := by
    show (s.abandon.run.afterReset kind).areaLow &&& 0xFFF = 0
    rw [abandon_run]
    rcases afterReset_area s.run kind with e | e <;> rw [e]
    · rfl
    · exact c.base
  fault _ := rfl
  load := ⟨fun w r waits => by cases w <;> exact absurd waits (by simp [State.resetAs, Arbiter.waitingOf, Arbiter.reset]),
    fun g granted => absurd granted (by simp [State.resetAs, Arbiter.reset]),
    fun r l waits => absurd waits (by simp [State.resetAs, Arbiter.reset])⟩
  queue := by
    obtain ⟨host, loadHost⟩ := afterReset_flowLow s.abandon.unit kind
    refine ⟨Nat.zero_le _, ?_, ?_, fun _ => rfl⟩
    · show (s.abandon.unit.afterReset kind).host.flowLow ≤ 72
      rw [host]; exact Nat.zero_le _
    · show (s.abandon.unit.afterReset kind).loadHost.flowLow ≤ 72
      rw [loadHost]; exact Nat.zero_le _
  seq := seqOk_empty rfl

theorem resetAs_lane (s : State) (kind : ResetKind) (l : Lane) : (s.resetAs kind).lane l = (s.lane l).afterReset kind s.run.clock := by
  have lanes : (s.resetAs kind).lanes = s.abandon.lanes.map fun u => u.afterReset kind s.abandon.run.clock := rfl
  rw [State.lane, lanes, abandon_lanes, abandon_run]
  exact Vector.getElem_map ..

theorem sound_resetAs {s : State} (kind : ResetKind) (h : s.lanesSound) : (s.resetAs kind).lanesSound := by
  intro l
  rw [resetAs_lane]
  exact sound_afterReset (h l) kind s.run.clock

theorem core_startRun {s : State} (device : s.run.device = .resetIdle ∨ s.run.device = .stopped) (c : s.coreOk) : s.startRun.coreOk where
  base := c.base
  fault h := absurd h (by simp [State.startRun])
  load := by
    obtain ⟨waiting, granted, -⟩ := c.load
    refine ⟨waiting, fun g e => ?_, fun _ _ _ _ => .inl rfl⟩
    obtain ⟨owner, alone, -⟩ := granted g e
    exact ⟨owner, alone, fun _ _ => rfl⟩
  queue := ⟨c.queue.1, c.queue.2.1, c.queue.2.2.1, fun _ => c.queue.2.2.2 (device.imp id .inr)⟩
  seq := c.seq

theorem core_writeArea {s : State} (high : Bool) (v : Word32) (bytes : BitVec 4) (c : s.coreOk) : (s.writeArea high v bytes).coreOk := by
  have base : (s.writeArea high v bytes).baseOk := by
    unfold State.writeArea
    split
    case h_1 | h_2 =>
      split
      · exact c.base
      · exact baseOk_masked _
    all_goals exact c.base
  obtain ⟨lo, hi, eq⟩ := writeArea_cases s high v bytes
  rw [eq] at base ⊢
  exact { base := base, fault := c.fault, load := c.load, queue := c.queue, seq := c.seq }

theorem core_linkAbort {s : State} (c : s.coreOk) : s.linkAbort.coreOk := by
  obtain ⟨run, -, -, lanes, -, staging, unit, dma, -⟩ := linkAbort_spec s
  generalize s.linkAbort = t at *
  exact {
    base := by rw [State.baseOk, run]; exact c.base
    fault := fun _ => by rw [dma]
    load := ⟨by rw [dma]; exact c.load.1, fun g granted => by rw [dma] at granted; simp at granted, fun r l _ _ => .inr (by rw [run])⟩
    queue := by
      obtain ⟨fill, low, loadLow, -⟩ := c.queue
      refine ⟨by rw [staging]; exact fill, by rw [unit]; exact low, by rw [unit]; exact loadLow, fun device => ?_⟩
      rw [run] at device
      simp at device
    seq := c.seq.congr (by rw [staging]) (by rw [staging]) fun m => by rw [lanes m]; rfl }

theorem sound_linkAbort {s : State} (h : s.lanesSound) : s.linkAbort.lanesSound := by
  obtain ⟨-, -, -, lanes, -⟩ := linkAbort_spec s
  intro l
  rw [lanes l]
  exact sound_dropCapture (sound_cut (h l))

/-! ## Every command -/

theorem Done.core {s m : State} {c : Instr} (done : Done s c m) (h : s.coreOk) : m.coreOk := by
  cases done with
  | reset kind _ eq => rw [eq]; exact core_resetAs kind h
  | run _ device eq => rw [eq]; exact core_startRun device h
  | areaWrite high v bytes _ eq => rw [eq]; exact core_writeArea high v bytes h
  | causeRead bytes _ eq => rw [eq]; exact { base := h.base, fault := h.fault, load := h.load, queue := h.queue, seq := h.seq }
  | abort _ _ _ eq => rw [eq]; exact core_linkAbort h
  | completed _ _ _ leaves => exact leaves.core h
  | worked _ work => exact work.core h

theorem Done.sound {s m : State} {c : Instr} (done : Done s c m) (h : s.lanesSound) : m.lanesSound := by
  cases done with
  | reset kind _ eq => rw [eq]; exact sound_resetAs kind h
  | run _ _ eq => rw [eq]; exact h
  | areaWrite high v bytes _ eq =>
    obtain ⟨lo, hi, written⟩ := writeArea_cases s high v bytes
    rw [eq, written]
    exact h
  | causeRead bytes _ eq => rw [eq]; exact h
  | abort _ _ _ eq => rw [eq]; exact sound_linkAbort h
  | completed _ _ _ leaves => exact leaves.lanes h
  | worked _ work => exact work.lanes h

theorem Done.hostMem {s m : State} {c : Instr} (done : Done s c m) :
    m.hostMem = s.hostMem ∨ m.hostMem = s.complete.hostMem ∨ m.hostMem = s.abandon.hostMem := by
  cases done with
  | reset _ _ eq => rw [eq]; exact .inr (.inr rfl)
  | run _ _ eq => rw [eq]; exact .inl rfl
  | areaWrite high v bytes _ eq =>
    obtain ⟨lo, hi, written⟩ := writeArea_cases s high v bytes
    rw [eq, written]
    exact .inl rfl
  | causeRead bytes _ eq => rw [eq]; exact .inl rfl
  | abort _ _ _ eq => rw [eq]; exact .inr (.inr (linkAbort_spec s).2.2.2.2.2.2.2.2.1)
  | completed _ _ _ leaves => exact .inr (.inl leaves.hostMem)
  | worked _ work => exact .inl work.hostMem

/-- What the end of an event adds, where it comes, is work. -/
theorem core_ends {m : State} (ends : Bool) (h : m.coreOk) : (if ends then m.settle else m).coreOk := by
  cases ends with
  | true => exact (Work.settle m).core h
  | false => exact h

theorem sound_ends {m : State} (ends : Bool) (h : m.lanesSound) : (if ends then m.settle else m).lanesSound := by
  cases ends with
  | true => exact (Work.settle m).lanes h
  | false => exact h

theorem exec_core {c : Instr} {s t : State} (ran : exec c s = .next t) (h : s.coreOk) : t.coreOk := by
  obtain rfl | ⟨m, ends, effect, rfl⟩ := leads_of_exec ran
  · exact h
  · exact core_ends ends (effect.done.core h)

theorem exec_sound {c : Instr} {s t : State} (ran : exec c s = .next t) (h : s.lanesSound) : t.lanesSound := by
  obtain rfl | ⟨m, ends, effect, rfl⟩ := leads_of_exec ran
  · exact h
  · exact sound_ends ends (effect.done.sound h)

theorem hostMem_ends (m : State) (ends : Bool) : (if ends then m.settle else m).hostMem = m.hostMem := by
  cases ends with
  | true => exact (settle_frame m).hostMem
  | false => rfl

theorem exec_memOk {c : Instr} {s t : State} (ran : exec c s = .next t) (h : s.memOk) : t.memOk := by
  obtain rfl | ⟨m, ends, effect, rfl⟩ := leads_of_exec ran
  · exact h
  · rw [State.memOk, hostMem_ends]
    obtain same | same | same := effect.done.hostMem <;> rw [same]
    · exact h
    · exact complete_memOk h
    · exact abandon_memOk h

/-- An event that the end of an event does not follow asks for nothing and leaves the engine as it is, or it stops it (R168). -/
theorem Effect.engineOk {s m : State} {c : Instr} (effect : Effect s c m false) (h : s.engineOk) : m.engineOk := by
  by_cases event : ∃ l, laneOf c = some l
  · obtain ⟨l, lane⟩ := event
    have step := (laneWork_of_effect effect lane).step.toLaneFrame
    rw [State.engineOk, step.device, step.dma]
    exact h
  cases effect with
  | powerOnReset | linkReset | softReset => exact fun _ _ => ⟨rfl, rfl, rfl⟩
  | causeRead => exact h
  | areaWrite high v bytes =>
    obtain ⟨lo, hi, written⟩ := writeArea_cases s high v bytes
    rw [written]
    exact h
  | dmaAbort => exact fun running => absurd (by rw [(linkAbort_spec s).1]) running
  | _ => exact absurd ⟨_, rfl⟩ event

theorem exec_engineOk {c : Instr} {s t : State} (ran : exec c s = .next t) (h : s.engineOk) : t.engineOk := by
  obtain rfl | ⟨m, ends, effect, rfl⟩ := leads_of_exec ran
  · exact h
  · cases ends with
    | true => exact settle_engineOk m
    | false => exact effect.engineOk h

/-! ## A step -/

theorem core_tick {s : State} (h : s.coreOk) : s.tick.coreOk where
  base := h.base
  fault := h.fault
  load := h.load.same rfl rfl
  queue := h.queue
  seq := h.seq.congr rfl rfl fun m => by rw [lane_tick]; rfl

theorem tick_port (u : LaneUnit) (inRun : Bool) (p : Port) : (u.tick inRun).port p = (u.port p).tick := by cases p <;> rfl

theorem tick_drawerOk {d : Drawer} (h : d.ok) : d.tick.ok := by
  obtain ⟨latched, kick, few⟩ := h
  refine ⟨latched, fun on => ⟨(kick on).1, ?_⟩, few⟩
  show tickTimer d.pulse ≠ none
  rw [tickTimer, ne_eq, Option.map_eq_none_iff]
  exact (kick on).2

theorem tick_sound {u : LaneUnit} (inRun : Bool) (h : u.sound) : (u.tick inRun).sound := by
  obtain ⟨⟨drawer, portA, portB, keys⟩, fit, settings⟩ := h
  refine ⟨⟨tick_drawerOk drawer, portA, portB, keys⟩, fit.congr rfl (fun p => ?_) (fun p => ?_) fun p waits => ?_, settings⟩
  · cases p <;> rfl
  · rw [tick_port]; rfl
  · rw [tick_port] at waits
    exact .inl waits

/-- Settles O57: the machine's invariants hold on through a tick, and through every command by what it does. -/
theorem machineInvariant : Obligations.MachineInvariant := by
  unfold Obligations.MachineInvariant
  intro s t ⟨mem, base, fault, engine, load, queue, seq⟩ ran
  have core : s.coreOk := ⟨base, fault, load, queue, seq⟩
  unfold step at ran
  split at ran
  · cases ran
    obtain ⟨base, fault, load, queue, seq⟩ := core_tick core
    exact ⟨mem, base, fault, engine, load, queue, seq⟩
  · next c rest _ =>
    obtain ⟨base, fault, load, queue, seq⟩ := exec_core ran ⟨base, fault, load, queue, seq⟩
    exact ⟨exec_memOk ran mem, base, fault, exec_engineOk ran engine, load, queue, seq⟩

/-- Settles O59: every lane unit is sound on through a tick, and through every command by what it does. -/
theorem laneInvariant : Obligations.LaneInvariant := by
  unfold Obligations.LaneInvariant
  intro s t ⟨ok, once, receivers, settings⟩ ran
  have sound : s.lanesSound := fun l => ⟨ok l, ⟨once l, receivers l⟩, settings l⟩
  have after : t.lanesSound := by
    unfold step at ran
    split at ran
    · cases ran
      intro l
      rw [lane_tick]
      exact tick_sound s.inRun (sound l)
    · exact exec_sound ran sound
  exact ⟨fun l => (after l).ok, fun l => (after l).fit.1, fun l => (after l).fit.2, fun l => (after l).settings⟩

/-! ## Run control (O13) -/

theorem Work.endOf (m : State) (ends : Bool) : Work m (if ends then m.settle else m) := by
  cases ends with
  | true => exact Work.settle m
  | false => exact Work.refl m

/-- The registers, the clock and the waiting commands as a command keeps them, and the run count, the area base and the pending causes
where it is none of theirs (R171, R174, R176, R178, R180). -/
structure Registers (s : State) (c : Instr) (t : State) : Prop where
  pending : t.pending = s.pending
  clock : t.run.clock = s.run.clock
  lastReset : t.run.lastReset = s.run.lastReset
  runCount : c ≠ .run → t.run.runCount = s.run.runCount
  area : (∀ h v b, c ≠ .areaWrite h v b) → t.run.areaLow = s.run.areaLow ∧ t.run.areaHigh = s.run.areaHigh
  causes : (∀ b, c ≠ .causeRead b) → ∀ i, s.run.causes.getLsbD i = true → t.run.causes.getLsbD i = true

theorem Keeps.registers {s t : State} {mem : List Host.Cell} (h : Keeps s mem t) (c : Instr) : Registers s c t :=
  ⟨h.pending, h.clock, h.lastReset, fun _ => h.runCount, fun _ => ⟨h.areaLow, h.areaHigh⟩, fun _ => h.causes⟩

theorem Registers.onward {s m t : State} {c : Instr} (a : Registers s c m) (b : Work m t) : Registers s c t where
  pending := b.pending.trans a.pending
  clock := b.clock.trans a.clock
  lastReset := b.lastReset.trans a.lastReset
  runCount other := b.runCount.trans (a.runCount other)
  area other := ⟨b.areaLow.trans (a.area other).1, b.areaHigh.trans (a.area other).2⟩
  causes other i h := b.causes i (a.causes other i h)

theorem Done.registers {s m : State} {c : Instr} (done : Done s c m) (plain : isReset c = false) : Registers s c m := by
  cases done with
  | reset _ is => exact absurd (plain.symm.trans is) (by simp)
  | run is _ eq => rw [eq]; exact ⟨rfl, rfl, rfl, fun other => absurd is other, fun _ => ⟨rfl, rfl⟩, fun _ _ => id⟩
  | areaWrite high v bytes is eq =>
    obtain ⟨lo, hi, written⟩ := writeArea_cases s high v bytes
    rw [eq, written]
    exact ⟨rfl, rfl, rfl, fun _ => rfl, fun other => absurd is (other _ _ _), fun _ _ => id⟩
  | causeRead bytes is eq => rw [eq]; exact ⟨rfl, rfl, rfl, fun _ => rfl, fun _ => ⟨rfl, rfl⟩, fun other => absurd is (other _)⟩
  | abort _ _ _ eq =>
    obtain ⟨run, -, -, -, pending, -⟩ := linkAbort_spec s
    rw [eq]
    refine ⟨pending, by rw [run], by rw [run], fun _ => by rw [run], fun _ => ⟨by rw [run], by rw [run]⟩, fun _ i h => ?_⟩
    rw [run, BitVec.getLsbD_or, h, Bool.true_or]
  | completed _ _ _ leaves => exact leaves.toKeeps.registers c
  | worked _ work => exact work.toKeeps.registers c

/-- The device is FAULTED for the reason it was, no request is granted, no record enters or leaves, and nothing is stored (R100, R168,
R181). -/
structure Faulted (s t : State) : Prop where
  device : t.run.device = .faulted
  fault : t.run.fault = s.run.fault
  free : t.dma.granted = none
  queue : t.staging.queue = s.staging.queue
  hostMem : t.hostMem = s.hostMem

theorem Work.keepsFaulted {s t : State} (h : Work s t) (device : s.run.device = .faulted) (free : s.dma.granted = none) : Faulted s t := by
  obtain ⟨device, fault, free, queue⟩ := h.faulted device free
  exact ⟨device, fault, free, queue, h.hostMem⟩

theorem Faulted.onward {s m t : State} (a : Faulted s m) (b : Work m t) : Faulted s t := by
  obtain ⟨device, fault, free, queue, hostMem⟩ := b.keepsFaulted a.device a.free
  exact ⟨device, fault.trans a.fault, free, queue.trans a.queue, hostMem.trans a.hostMem⟩

theorem Done.faulted {s m : State} {c : Instr} (done : Done s c m) (plain : isReset c = false) (device : s.run.device = .faulted)
    (free : s.dma.granted = none) : Faulted s m := by
  cases done with
  | reset _ is => exact absurd (plain.symm.trans is) (by simp)
  | run _ idle => exact absurd idle (by simp [device])
  | areaWrite high v bytes _ eq =>
    rw [eq, writeArea_ignored high v bytes (by simp [device]) (by simp [device])]
    exact ⟨device, rfl, free, rfl, rfl⟩
  | causeRead bytes _ eq => rw [eq]; exact ⟨device, rfl, free, rfl, rfl⟩
  | abort g granted => exact absurd (free.symm.trans granted) (by simp)
  | completed g granted => exact absurd (free.symm.trans granted) (by simp)
  | worked _ work => exact work.keepsFaulted device free

/-- Settles O13: by what a command has done, and the end of its event, which is work. -/
theorem runControlKept : Obligations.RunControlKept := by
  unfold Obligations.RunControlKept
  refine ⟨fun c s t ran plain => ?_, fun c s t device free ran plain => ?_⟩
  · obtain rfl | ⟨m, ends, effect, rfl⟩ := leads_of_exec ran
    · exact ⟨rfl, rfl, rfl, fun _ => rfl, fun _ => ⟨rfl, rfl⟩, fun _ _ => id⟩
    · obtain ⟨pending, clock, lastReset, runCount, area, causes⟩ := (effect.done.registers plain).onward (Work.endOf m ends)
      exact ⟨pending, clock, lastReset, runCount, area, causes⟩
  · obtain rfl | ⟨m, ends, effect, rfl⟩ := leads_of_exec ran
    · exact ⟨device, rfl, free, rfl, rfl⟩
    · obtain ⟨device, fault, free, queue, hostMem⟩ := (effect.done.faulted plain device free).onward (Work.endOf m ends)
      exact ⟨device, fault, free, queue, hostMem⟩

/-! ## Host memory (O56) -/

theorem stored_of_complete {s t : State} {g : Grant} (granted : s.dma.granted = some g) (mem : t.hostMem = s.complete.hostMem) :
    Stored s t g := by
  rw [complete_eq granted] at mem
  refine ⟨fun i b at_i => ?_, fun a out => ?_⟩
  · rw [State.memByte, mem]
    exact memGet_memWrite_in _ _ _ _ _ at_i
  · rw [State.memByte, mem]
    exact memGet_memWrite_out _ _ _ _ out

theorem abandoned_of_abandon {s t : State} (mem : t.hostMem = s.abandon.hostMem) : Abandoned s t := by
  unfold Abandoned
  split
  · next none => rw [mem, State.abandon, none]
  · next g granted =>
    rw [abandon_eq granted] at mem
    refine ⟨fun i b at_i => ?_, fun a out => ?_⟩
    · have landed := memGet_memWritePart_in (Config.abortLands s.freeUsed) g.address g.req.data s.hostMem 0 i b at_i
      rw [Nat.zero_add] at landed
      rw [State.memByte, mem]
      exact landed
    · rw [State.memByte, mem]
      exact memGet_memWritePart_out _ _ _ _ _ _ (by simpa using out)

/-- A completion takes effect when the granted request is the one it completes. -/
theorem exec_of_completes {s : State} {c : Instr} {g : Grant} (granted : s.dma.granted = some g) (of : completes c g.req.purpose) :
    ∃ m, Effect s c m true ∧ exec c s = .next m.settle := by
  obtain ⟨p, purpose⟩ : ∃ p, g.req.purpose = p := ⟨_, rfl⟩
  have found := purpose_of_granted granted purpose
  rw [purpose] at of
  cases c <;> cases p
  case hostPartReadComplete.hostPartRead data =>
    exact ⟨_, .hostPart granted purpose data, by show execHostPartReadComplete data s = _; rw [execHostPartReadComplete, found]⟩
  case laneSettingsReadComplete.laneSettingsRead data l =>
    exact ⟨_, .laneRecord granted purpose data, by show execLaneSettingsReadComplete data s = _; rw [execLaneSettingsReadComplete, found]⟩
  case statusWriteComplete.deviceStatusWrite =>
    exact ⟨_, .statusWrite granted (completes_of_purpose purpose trivial), by show execStatusWriteComplete s = _; rw [execStatusWriteComplete, found]⟩
  case statusWriteComplete.laneStatusWrite l =>
    exact ⟨_, .statusWrite granted (completes_of_purpose purpose trivial), by show execStatusWriteComplete s = _; rw [execStatusWriteComplete, found]⟩
  case reloadSettingsReadComplete.reloadRead data l =>
    exact ⟨_, .reloadRead granted purpose data, by show execReloadSettingsReadComplete data s = _; rw [execReloadSettingsReadComplete, found]⟩
  case reloadEchoWriteComplete.reloadEcho l =>
    exact ⟨_, .reloadEcho granted purpose, by show execReloadEchoWriteComplete s = _; rw [execReloadEchoWriteComplete, found]⟩
  case pageLinkReadComplete.pageLinkRead link =>
    exact ⟨_, .pageLink granted purpose link, by show execPageLinkReadComplete link s = _; rw [execPageLinkReadComplete, found]⟩
  case pageHeaderReadComplete.pageHeaderRead st o =>
    exact ⟨_, .pageHeader granted purpose st, by show execPageHeaderReadComplete st s = _; rw [execPageHeaderReadComplete, found]⟩
  case recordWriteComplete.recordWrite =>
    exact ⟨_, .recordWrite granted purpose, by show execRecordWriteComplete s = _; rw [execRecordWriteComplete, found]⟩
  case headerBodyWriteComplete.headerBodyWrite =>
    exact ⟨_, .headerBody granted purpose, by show execHeaderBodyWriteComplete s = _; rw [execHeaderBodyWriteComplete, found]⟩
  case closedMarkerWriteComplete.closedMarkerWrite =>
    exact ⟨_, .closedMarker granted purpose, by show execClosedMarkerWriteComplete s = _; rw [execClosedMarkerWriteComplete, found]⟩
  case orderLinkReadComplete.orderLinkRead link =>
    exact ⟨_, .orderLink granted purpose link, by show execOrderLinkReadComplete link s = _; rw [execOrderLinkReadComplete, found]⟩
  case slipReadComplete.slipRead data o =>
    exact ⟨_, .slipRead granted purpose data, by show execSlipReadComplete data s = _; rw [execSlipReadComplete, found]⟩
  case takenWriteComplete.takenWrite =>
    exact ⟨_, .taken granted purpose, by show execTakenWriteComplete s = _; rw [execTakenWriteComplete, found]⟩
  case slipBodyWriteComplete.slipBodyWrite =>
    exact ⟨_, .slipBody granted purpose, by show execSlipBodyWriteComplete s = _; rw [execSlipBodyWriteComplete, found]⟩
  case slipStateWriteComplete.slipStateWrite =>
    exact ⟨_, .slipState granted purpose, by show execSlipStateWriteComplete s = _; rw [execSlipStateWriteComplete, found]⟩
  all_goals exact of.elim

theorem not_completes_of_reset {c : Instr} (is : isReset c = true) (p : Purpose) : ¬completes c p := by
  cases c <;> simp only [isReset, Bool.false_eq_true] at is <;> exact id

theorem exec_of_reset {c : Instr} (is : isReset c = true) (s : State) : ∃ kind, exec c s = .next (s.resetAs kind) := by
  cases c <;> simp only [isReset, Bool.false_eq_true] at is <;> exact ⟨_, rfl⟩

theorem exec_dmaAbort_hostMem {s t : State} (ran : exec .dmaAbort s = .next t) : t.hostMem = s.abandon.hostMem := by
  have unfolded : execDmaAbort s = .next t := ran
  unfold execDmaAbort at unfolded
  split at unfolded <;> obtain rfl := Host.Outcome.next.inj unfolded
  · exact (linkAbort_spec s).2.2.2.2.2.2.2.2.1
  · next none => rw [State.abandon, none]

/-- Settles O56: a completion stores its write, an abort and a reset may, and no other command does. -/
theorem memoryWrites : Obligations.MemoryWrites := by
  unfold Obligations.MemoryWrites
  intro c s t ran
  refine ⟨fun g granted of => ?_, fun ends => ?_, fun goesOn plain other => ?_⟩
  · obtain ⟨m, effect, done⟩ := exec_of_completes granted of
    obtain rfl := Host.Outcome.next.inj (ran.symm.trans done)
    refine stored_of_complete granted ((settle_frame m).hostMem.trans ?_)
    cases effect.done with
    | completed _ _ _ leaves => exact leaves.hostMem
    | worked other => exact absurd of (other _)
    | reset _ is => exact absurd of (not_completes_of_reset is _)
    | run is | areaWrite _ _ _ is | causeRead _ is => subst is; exact of.elim
    | abort _ _ is => subst is; exact of.elim
  · obtain rfl | is := ends
    · exact abandoned_of_abandon (exec_dmaAbort_hostMem ran)
    · obtain ⟨kind, done⟩ := exec_of_reset is s
      obtain rfl := Host.Outcome.next.inj (ran.symm.trans done)
      exact abandoned_of_abandon rfl
  · obtain rfl | ⟨m, last, effect, rfl⟩ := leads_of_exec ran
    · rfl
    · rw [hostMem_ends]
      cases effect.done with
      | completed g granted of => exact absurd of (other g granted)
      | worked _ work => exact work.hostMem
      | reset _ is => exact absurd (plain.symm.trans is) (by simp)
      | run _ _ eq => rw [eq]; rfl
      | areaWrite high v bytes _ eq =>
        obtain ⟨lo, hi, written⟩ := writeArea_cases s high v bytes
        rw [eq, written]
      | causeRead _ _ eq => rw [eq]; rfl
      | abort _ _ is => exact absurd is goesOn

end Sys2Proof.Machine
end

section
/-! PROOFS. The step, the tick, and the resets (O1 to O5, O29, O60). -/

namespace Sys2Proof.Machine

/-! ## The step and the tick -/

/-- Settles O1: the definition of the step. -/
theorem stepTakesFront : Obligations.StepTakesFront := by
  unfold Obligations.StepTakesFront
  intro s c rest waits
  rw [step, waits]

theorem tick_eq (u : LaneUnit) (s : State) : u.tick s.inRun = { u with
    idle := if (s.run.device = .running ∨ s.run.device = .stopping) ∧ u.laneState = .active then tickTimer u.idle else u.idle
    keylock := u.keylock.tick
    kb := u.kb.tick
    portA := u.portA.tick
    portB := u.portB.tick
    drawer := u.drawer.tick } := by
  have counts : (s.inRun && u.laneState == .active) = true ↔
      (s.run.device = .running ∨ s.run.device = .stopping) ∧ u.laneState = .active := by
    rw [Bool.and_eq_true, inRun_iff, beq_iff_eq]
  simp only [LaneUnit.tick, counts]

/-- Settles O2: every timer of the tick by its definition. -/
theorem emptyQueueTicks : Obligations.EmptyQueueTicks := by
  unfold Obligations.EmptyQueueTicks
  intro s empty
  refine ⟨s.tick, by rw [step, empty], rfl, fun l => ?_⟩
  rw [lane_tick, tick_eq]
  rfl

/-- Settles O29: an order that is not the one handed on is not its owner's. -/
theorem ordersWhenHanded : Obligations.OrdersWhenHanded := by
  unfold Obligations.OrdersWhenHanded
  intro s l p b y tag
  have idle (o : Order) (other : s.walker.handed ≠ some o) : exec o.command s = .next s := by
    rw [exec_order, State.taking, if_neg other]
  exact ⟨idle (.drawerKick l), idle (.drawerLockout l), idle (.drawerRelease l), idle (.scannerSet l p b), idle (.scanConfirm l p b),
    idle (.keyImageRead l), idle (.laneReload l), idle (.laneState l y), idle (.countersRead l b), idle .flush, idle .policyLock,
    idle (.journalMark tag)⟩

/-! ## The resets (R182) -/

theorem irq_of_silent {s : State} (none : s.run.causes = 0) : s.irq = false := by
  rw [State.irq, none]
  simp

theorem reset_lane (l : Lane) : State.reset.lane l = .reset := by
  rw [State.lane]
  exact Vector.getElem_replicate ..

/-- Settles O3: each value as `State.reset` gives it. -/
theorem resetValues : Obligations.ResetValues := by
  unfold Obligations.ResetValues
  intro s
  have lane (l : Lane) : s.lane l = .reset := reset_lane l
  refine ⟨⟨rfl, rfl, rfl, rfl, rfl, rfl, rfl, irq_of_silent rfl, rfl, rfl, rfl, rfl⟩, ⟨rfl, rfl, rfl, rfl, rfl⟩, fun l => ?_, fun l => ?_, fun l p => ?_,
    fun l => ?_, fun l => ?_, fun l => ?_, ⟨rfl, rfl, rfl, rfl⟩, ⟨rfl, rfl, rfl, rfl, rfl, rfl, rfl, rfl, rfl, rfl, rfl, rfl, rfl⟩,
    ⟨rfl, rfl, rfl, rfl, rfl, rfl, rfl⟩, rfl, rfl, rfl, rfl, rfl, rfl⟩
  · rw [lane]; exact ⟨rfl, rfl, rfl, rfl, rfl, rfl, rfl, rfl, rfl, rfl, rfl, rfl, rfl⟩
  · rw [lane]
    exact ⟨rfl, fun k => rfl, fun k => Vector.getElem_replicate .., rfl, rfl, rfl, rfl, rfl, rfl⟩
  · have notReady : s.ready l p = false := rfl
    rw [lane]
    cases p <;> exact ⟨rfl, rfl, rfl, rfl, rfl, rfl, rfl, rfl, rfl, rfl, notReady⟩
  · rw [lane]; exact ⟨rfl, rfl⟩
  · rw [lane]; exact ⟨rfl, rfl, rfl, rfl, rfl, rfl, rfl, rfl, rfl, rfl, rfl, rfl, rfl, rfl, rfl, rfl, rfl⟩
  · rw [lane]
    exact ⟨fun i => Vector.getElem_replicate .., rfl, rfl, fun i => Vector.getElem_replicate ..⟩

theorem reset_lanesSound : State.reset.lanesSound := fun l => by
  rw [reset_lane]
  exact sound_of_cleared (u := .reset) ⟨rfl, rfl⟩ rfl rfl (drawer_ok_of_reset rfl rfl (Nat.zero_le _) rfl) (.inl rfl)
    ⟨fun configured => absurd configured (by simp [LaneUnit.reset]), fun d stored => absurd stored (by simp [LaneUnit.reset])⟩

/-- Settles O60: an idle, empty state. -/
theorem invariantsAtReset : Obligations.InvariantsAtReset := by
  unfold Obligations.InvariantsAtReset
  have sound := reset_lanesSound
  refine ⟨reset_memOk, rfl, fun _ => rfl, fun _ _ => ⟨rfl, rfl, rfl⟩,
    ⟨fun w r waits => by cases w <;> exact absurd waits (by simp [State.reset, Arbiter.waitingOf, Arbiter.reset]),
      fun g granted => absurd granted (by simp [State.reset, Arbiter.reset]),
      fun r l waits => absurd waits (by simp [State.reset, Arbiter.reset])⟩,
    ⟨Nat.zero_le _, Nat.zero_le _, Nat.zero_le _, fun _ => rfl⟩, seqOk_empty rfl,
    settled_of_idle (.inl rfl) (.inl rfl) (fun _ w => by cases w <;> rfl),
    fun l => (sound l).ok, fun l => (sound l).fit.1, fun l => (sound l).fit.2, fun l => (sound l).settings⟩

/-- What every reset leaves, but for run control, the lanes and the settings unit. -/
theorem resetAs_blocks (s : State) (kind : ResetKind) :
    (s.resetAs kind).run = s.run.afterReset kind ∧ (s.resetAs kind).unit = s.unit.afterReset kind ∧ (s.resetAs kind).irq = false ∧
      Abandoned s (s.resetAs kind) ∧ (s.resetAs kind).pending = s.pending ∧ (s.resetAs kind).causeReadData = s.causeReadData := by
  have run : (s.resetAs kind).run = s.run.afterReset kind := congrArg (RunControl.afterReset · kind) (abandon_run s)
  refine ⟨run, congrArg (SettingsUnit.afterReset · kind) (abandon_unit s), irq_of_silent ?_, abandoned_of_abandon rfl, abandon_pending s,
    abandon_causeReadData s⟩
  rw [run]
  cases kind <;> rfl

/-- Settles O4: the values of `afterReset`. -/
theorem fullResets : Obligations.FullResets := by
  unfold Obligations.FullResets
  intro s c k which
  obtain ⟨ran, notSoft⟩ : exec c s = .next (s.resetAs k) ∧ k ≠ .soft := by
    rcases which with ⟨rfl, rfl⟩ | ⟨rfl, rfl⟩ <;> exact ⟨rfl, by decide⟩
  obtain ⟨run, unit, irq, mem, pending, data⟩ := resetAs_blocks s k
  refine ⟨_, ran, run.trans ?_, fun l => (resetAs_lane s k l).trans ?_, rfl, rfl, rfl, unit.trans ?_, rfl, irq, mem, pending, data⟩ <;>
    cases k <;> trivial

/-- The history's ages on the clock before a reset are those on the clock 0 after it (R99). -/
theorem age_rebase (t clock : Word32) : 0 - (t - clock) = clock - t := by
  bv_omega

/-- Settles O5: the values of `afterReset`, and the history's ages by `age_rebase`. -/
theorem softReset : Obligations.SoftReset := by
  unfold Obligations.SoftReset
  intro s
  obtain ⟨run, unit, irq, mem, pending, data⟩ := resetAs_blocks s .soft
  have lane := resetAs_lane s .soft
  refine ⟨_, rfl, run, fun l => ?_, fun l => ?_, rfl, rfl, rfl, rfl, unit, irq, mem, pending, data⟩
  · rw [lane]; rfl
  · rw [lane, run]
    show (rebase (s.lane l).drawer.history s.run.clock).map (fun e => 0 - e) = _
    rw [rebase, List.map_map]
    exact List.map_congr_left fun t _ => age_rebase t s.run.clock

end Sys2Proof.Machine
end

section
/-! PROOFS. RUN, the REHEAD commands, NOTIFY, the read of CAUSE, and an abort (O6, O8 to O10, O12, O14). -/

namespace Sys2Proof.Machine

theorem drained_of_device {s : State} (other : s.run.device ≠ .stopping) : s.drained = false := by
  rw [State.drained, beq_eq_false_iff_ne.2 other]
  rfl

/-! ## RUN (R171) -/

/-- Settles O6: the load's first request is made at the end of the event. -/
theorem runTaken : Obligations.RunTaken := by
  unfold Obligations.RunTaken
  refine fun s => ⟨fun idle => ?_, fun notIdle notStopped => ?_⟩
  · have ran : exec .run s = .next s.startRun.settle := by
      show execRun s = _
      rcases idle with e | e <;> rw [execRun, e]
    refine ⟨s.startRun, _, ran, settle_frame _, rfl, settle_run (drained_of_device (by simp [State.startRun])), fun free => ?_⟩
    exact settle_load (s := s.startRun) rfl free (.inl ⟨rfl, rfl⟩)
  · show execRun s = _
    unfold execRun
    split <;> simp_all

/-! ## The REHEAD commands (R124, R142) -/

theorem takesReheadPages_iff (s : State) : s.takesReheadPages = true ↔ s.journal.state = .starved ∨ s.journal.state = .broken ∨
    (s.journal.state = .needPage ∧ s.journal.episode = true) ∨ (s.journal.state = .halted ∧ s.run.device = .stopped) := by
  unfold State.takesReheadPages
  cases s.journal.state <;> simp

theorem takesReheadOrders_iff (s : State) : s.takesReheadOrders = true ↔ s.walker.state = .parked ∨ s.walker.state = .broken ∨
    (s.walker.state = .fetching ∧ s.walker.isReread = true) ∨ (s.walker.state = .halted ∧ s.run.device = .stopped) := by
  unfold State.takesReheadOrders
  cases s.walker.state <;> simp

theorem reheadJournal_starts {s : State} (idle : s.journal.state = .starved ∨ s.journal.state = .broken) :
    s.reheadJournal = { s with journal.fromAnchor := true }.startFetch := by
  rcases idle with e | e <;> simp only [State.reheadJournal, e]

/-- What a REHEAD_PAGES that is taken leaves of every state in which it is. -/
theorem reheadJournal_eq {s : State} (taken : s.takesReheadPages = true) : ∃ dma, s.reheadJournal = { s with
    dma := dma
    journal := { s.journal with
      fromAnchor := true
      state := if s.journal.state = .halted then .halted else .needPage
      rehead := s.journal.rehead || decide (s.journal.state = .needPage) } } := by
  obtain e | e | ⟨e, -⟩ | ⟨e, -⟩ := (takesReheadPages_iff s).1 taken
  · exact ⟨_, (reheadJournal_starts (.inl e)).trans (by simp [e, State.startFetch, State.request]; rfl)⟩
  · exact ⟨_, (reheadJournal_starts (.inr e)).trans (by simp [e, State.startFetch, State.request]; rfl)⟩
  · exact ⟨s.dma, by simp [State.reheadJournal, e]⟩
  · exact ⟨s.dma, by simp [State.reheadJournal, e]⟩

theorem reheadWalker_starts {s : State} (idle : s.walker.state = .parked ∨ s.walker.state = .broken) :
    ∃ again rewrite, s.reheadWalker = { s with walker.fromAnchor := true, unit.devRewrite := rewrite }.walkerFetch again := by
  rcases idle with e | e <;> simp only [State.reheadWalker, e]
  · exact ⟨_, _, rfl⟩
  · exact ⟨_, s.unit.devRewrite, rfl⟩

/-- What a REHEAD_ORDERS that is taken leaves of every state in which it is. -/
theorem reheadWalker_eq {s : State} (taken : s.takesReheadOrders = true) : ∃ dma again, s.reheadWalker = { s with
    dma := dma
    unit.devRewrite := s.unit.devRewrite || decide (s.walker.state = .parked)
    walker := { s.walker with
      fromAnchor := true
      state := if s.walker.state = .halted then .halted else .fetching
      isReread := again
      rehead := s.walker.rehead || decide (s.walker.state = .fetching) } } := by
  obtain e | e | ⟨e, -⟩ | ⟨e, -⟩ := (takesReheadOrders_iff s).1 taken
  · exact ⟨_, true, by simp [State.reheadWalker, State.walkerFetch, State.request, e]; rfl⟩
  · exact ⟨_, false, by simp [State.reheadWalker, State.walkerFetch, State.request, e]; rfl⟩
  · exact ⟨s.dma, s.walker.isReread, by simp [State.reheadWalker, e]⟩
  · exact ⟨s.dma, s.walker.isReread, by simp [State.reheadWalker, e]⟩

theorem asks_startFetch (s : State) : s.startFetch.asks .journal (readRequest .pageLinkRead s.journal.linkOffset 4) := asks_request _ _ _

theorem asks_walkerFetch (s : State) (again : Bool) : (s.walkerFetch again).asks .walker (readRequest .orderLinkRead s.walker.linkOffset 4) :=
  asks_request _ _ _

/-- The journal writer stays as it is when a fetch is in flight or it is HALTED. -/
theorem settle_journal_fetching {m : State} (busy : m.journal.state = .needPage ∨ m.journal.state = .halted) :
    m.settle.journal = m.journal :=
  (settle_frame m).stays (by rcases busy with e | e <;> simp [e]) fun _ => by rcases busy with e | e <;> simp [e]

/-- Settles O8: the two commands case by case of the block's state. -/
theorem reheadCommands : Obligations.ReheadCommands := by
  unfold Obligations.ReheadCommands
  intro s
  refine ⟨fun taken => ?_, fun other => ?_, fun taken => ?_, fun other => ?_⟩
  · have takes := (takesReheadPages_iff s).2 taken
    refine ⟨s.reheadJournal, _, if_pos takes, settle_frame _, ?_, settle_journal_fetching ?_, fun idle => asks_settle ?_⟩
    · obtain ⟨dma, eq⟩ := reheadJournal_eq takes
      rw [eq]
    · obtain ⟨dma, eq⟩ := reheadJournal_eq takes
      rw [eq]
      by_cases halted : s.journal.state = .halted <;> simp [halted]
    · rw [reheadJournal_starts idle]
      exact asks_startFetch _
  · exact if_neg (mt (takesReheadPages_iff s).1 other)
  · have takes := (takesReheadOrders_iff s).2 taken
    refine ⟨s.reheadWalker, _, if_pos takes, settle_frame _, ?_, fun idle => asks_settle ?_⟩
    · obtain ⟨dma, again, eq⟩ := reheadWalker_eq takes
      rw [eq]
    · obtain ⟨again, rewrite, eq⟩ := reheadWalker_starts idle
      rw [eq]
      exact asks_walkerFetch _ again
  · exact if_neg (mt (takesReheadOrders_iff s).1 other)

/-! ## NOTIFY (R177) -/

/-- The journal writer after NOTIFY (R122). -/
def Journal.notified (j : Journal) (h : HostSettings) : Journal :=
  match j.state with
  | .starved => { j with state := .needPage, recheck := h.recheckTimer }
  | .needPage => { j with reread := true }
  | _ => j

/-- The walker after NOTIFY (R139). -/
def Walker.notified (w : Walker) (h : HostSettings) : Walker :=
  match w.state with
  | .parked => { w with state := .fetching, isReread := true, recheck := h.recheckTimer }
  | .fetching => { w with reread := true }
  | _ => w

theorem Journal.notified_idle {j : Journal} (h : HostSettings) (notStarved : j.state ≠ .starved) (notFetching : j.state ≠ .needPage) :
    j.notified h = j := by
  unfold Journal.notified
  split
  · next e => exact absurd e notStarved
  · next e => exact absurd e notFetching
  · rfl

theorem Walker.notified_idle {w : Walker} (h : HostSettings) (notParked : w.state ≠ .parked) (notFetching : w.state ≠ .fetching) :
    w.notified h = w := by
  unfold Walker.notified
  split
  · next e => exact absurd e notParked
  · next e => exact absurd e notFetching
  · rfl

theorem notifyJournal_asks {s : State} (starved : s.journal.state = .starved) :
    s.notifyJournal.asks .journal (readRequest .pageLinkRead s.journal.linkOffset 4) := by
  simp only [State.notifyJournal, starved]
  exact asks_request _ _ _

theorem notifyJournal_eq (s : State) : ∃ dma, s.notifyJournal = { s with dma := dma, journal := s.journal.notified s.unit.host } := by
  cases e : s.journal.state
  case starved => exact ⟨_, by simp only [State.notifyJournal, Journal.notified, e]; rfl⟩
  all_goals exact ⟨s.dma, by simp only [State.notifyJournal, Journal.notified, e]⟩

theorem notifyWalker_eq (s : State) : ∃ dma, s.notifyWalker = { s with
    dma := dma
    walker := s.walker.notified s.unit.host
    unit.devRewrite := s.unit.devRewrite || decide (s.walker.state = .parked) } := by
  cases e : s.walker.state
  case parked => exact ⟨_, by simp only [State.notifyWalker, Walker.notified, e, decide_true, Bool.or_true]; rfl⟩
  all_goals exact ⟨s.dma, by simp [State.notifyWalker, Walker.notified, e]⟩

/-- What NOTIFY does in every state of the two blocks. -/
theorem notify_eq (s : State) : ∃ dma, s.notifyWalker.notifyJournal = { s with
    dma := dma
    journal := s.journal.notified s.unit.host
    walker := s.walker.notified s.unit.host
    unit.devRewrite := s.unit.devRewrite || decide (s.walker.state = .parked) } := by
  obtain ⟨dma, walker⟩ := notifyWalker_eq s
  obtain ⟨dma', journal⟩ := notifyJournal_eq s.notifyWalker
  exact ⟨dma', by rw [journal, walker]⟩

theorem takesNotify_iff (s : State) : s.takesNotify = true ↔ s.journal.state = .starved ∨ s.journal.state = .needPage ∨
    s.walker.state = .parked ∨ s.walker.state = .fetching := by
  simp [State.takesNotify, or_assoc]

/-- The walker's request stands when the journal writer has made its own. -/
theorem asks_notifyJournal {s : State} {r : Request} (asks : s.asks .walker r) : s.notifyJournal.asks .walker r := by
  unfold State.notifyJournal
  split
  · exact asks_request_ne _ (by decide) asks
  all_goals exact asks

theorem exec_notify (v : Word32) (s : State) :
    exec (.notify v) s = if s.takesNotify then .next s.notifyWalker.notifyJournal.settle else .next s := rfl

/-- Settles O9: each block's part by its state. -/
theorem notifyTaken : Obligations.NotifyTaken := by
  unfold Obligations.NotifyTaken
  intro s v
  have registers : s.readRegister 4 = 0 ∧ s.readRegister 0 = 0x08040001 ∧ ∀ w b, exec (.registerWriteOther 0 w b) s = .next s :=
    ⟨rfl, rfl, fun _ _ => rfl⟩
  by_cases takes : s.takesNotify = true
  · have which := (takesNotify_iff s).1 takes
    obtain ⟨dma, eq⟩ := notify_eq s
    have ran : exec (.notify v) s = .next s.notifyWalker.notifyJournal.settle := by rw [exec_notify, if_pos takes]
    refine ⟨_, _, ran, settle_frame _, ?_, fun starved => ⟨settle_journal_fetching (.inl ?_), asks_settle ?_⟩,
      fun parked => asks_settle (asks_notifyJournal ?_), fun a b c d => ?_, registers⟩
    · rw [eq]; rfl
    · rw [eq]
      simp only [Journal.notified, starved]
    · obtain ⟨dma, walker⟩ := notifyWalker_eq s
      have same : s.notifyWalker.journal = s.journal := by rw [walker]
      have asks := notifyJournal_asks (s := s.notifyWalker) (by rw [same]; exact starved)
      rwa [same] at asks
    · have fetch : s.notifyWalker = s.walkerReread := by simp only [State.notifyWalker, parked]
      rw [fetch]
      exact asks_walkerFetch { s with walker.recheck := s.unit.host.recheckTimer, unit.devRewrite := true } true
    · exact absurd which (by simp [a, b, c, d])
  · have idle : ¬(s.journal.state = .starved ∨ s.journal.state = .needPage ∨ s.walker.state = .parked ∨ s.walker.state = .fetching) :=
      mt (takesNotify_iff s).2 takes
    simp only [not_or] at idle
    obtain ⟨notStarved, notFetching, notParked, notRereading⟩ := idle
    refine ⟨s, s, by rw [exec_notify, if_neg takes], SettleFrame.refl s, ?_, fun h => absurd h notStarved, fun h => absurd h notParked,
      fun _ _ _ _ => rfl, registers⟩
    show s = { s with
      journal := s.journal.notified s.unit.host
      walker := s.walker.notified s.unit.host
      unit.devRewrite := s.unit.devRewrite || decide (s.walker.state = .parked) }
    rw [Journal.notified_idle _ notStarved notFetching, Walker.notified_idle _ notParked notRereading, decide_eq_false notParked,
      Bool.or_false]

/-! ## CAUSE (R175, R180) -/

/-- Settles O10: the word read, bit by bit. -/
theorem causeRead : Obligations.CauseRead := by
  unfold Obligations.CauseRead
  intro s bytes
  refine ⟨s.readCause bytes, rfl, rfl, irq_of_silent rfl, fun i inWord => ?_, rfl, fun v b => ⟨rfl, rfl⟩⟩
  show (s.causeWord &&& bytesMask bytes).getLsbD i = _
  rw [BitVec.getLsbD_and, getLsbD_causeWord s inWord, getLsbD_bytesMask bytes inWord, Bool.and_comm]

/-! ## An abort, and a bad anchor (R157, R168, R181) -/

theorem cut_eq (q : ScanPort) : q.cut =
    if q.frame = .assembling then { q with frame := .discarding, mark := none, text := [], damaged := false, tooLong := false } else q :=
  rfl

theorem notHalted_eq (w : Walker) : (w.state != .halted) = decide (w.state ≠ .halted) := by
  cases w.state <;> rfl

/-- Settles O12: what `linkAbort` does to each block. -/
theorem linkAbort : Obligations.LinkAbort := by
  unfold Obligations.LinkAbort
  intro s g granted
  have ran : exec .dmaAbort s = .next s.linkAbort := by
    show execDmaAbort s = _
    rw [execDmaAbort, granted]
  obtain ⟨run, walker, journal, lanes, pending, staging, unit, dma, hostMem, -⟩ := linkAbort_spec s
  refine ⟨_, ran, run, dma, journal, walker, staging, pending, abandoned_of_abandon hostMem, ?_, fun l => ?_, fun l p => ?_⟩
  · rw [unit, notHalted_eq]
  · rw [lanes l]; rfl
  · rw [lanes l, ← cut_eq]
    cases p <;> rfl

theorem exec_hostPart {s : State} {g : Grant} (data : List Byte) (granted : s.dma.granted = some g)
    (purpose : g.req.purpose = .hostPartRead) : exec (.hostPartReadComplete data) s = .next (s.complete.hostPart data).settle := by
  show execHostPartReadComplete data s = _
  rw [execHostPartReadComplete, purpose_of_granted granted purpose]

theorem hostPartGood_iff (data : List Byte) : hostPartGood data = true ↔ field1 data 0 = 1 ∧ 4096 ≤ (field4 data 0x0C).toNat := by
  rw [hostPartGood, Bool.and_eq_true, beq_iff_eq, decide_eq_true_eq]

/-- Settles O14: a good host part is kept for the delivery, a bad one makes the device FAULTED. -/
theorem hostPartRead : Obligations.HostPartRead := by
  unfold Obligations.HostPartRead
  intro s g data granted purpose loading
  have ran := exec_hostPart data granted purpose
  refine ⟨fun good => ?_, fun bad => ?_⟩
  · have part : s.complete.hostPart data =
        { s.complete with unit.loadHost := loadHost data, unit.loadRecords := [], unit.load := .laneRecord 0 } := by
      rw [State.hostPart, if_pos ((hostPartGood_iff data).2 good)]
    rw [part, complete_eq granted] at ran
    refine ⟨_, _, ran, settle_frame _, rfl, fun none => settle_load (by exact loading) ?_ (.inr ⟨0, rfl, rfl⟩)⟩
    have idle := complete_busy granted none
    rw [complete_eq granted] at idle
    exact idle
  · have part : s.complete.hostPart data = { s.complete with unit.load := .idle }.enterFaulted .anchorBad := by
      rw [State.hostPart, if_neg (mt (hostPartGood_iff data).1 bad)]
    rw [part, complete_eq granted] at ran
    obtain ⟨run, walker, lanes, -, staging, journal, unit, dma, -⟩ := enterFaulted_spec
      { s with hostMem := memWrite s.hostMem g.address g.req.data, dma.granted := none, unit.load := .idle } .anchorBad
    generalize State.enterFaulted _ _ = m at *
    refine ⟨m, _, ran, settle_frame m, ?_, ?_, walker, journal, staging, ?_, fun l => ?_⟩
    · rw [settle_run (drained_of_device (by simp [run])), run]
      rfl
    · exact ((Work.settle m).faulted (by rw [run]) (by rw [dma])).2.2.1
    · rw [unit, ← notHalted_eq]
    · rw [lanes l]
      exact ⟨rfl, rfl, rfl, rfl⟩

end Sys2Proof.Machine
end

section
/-! PROOFS. HALT (R133, R152, R173): the cuts in every lane, the idle walker's report, and a drain that is over at once (O7). -/

namespace Sys2Proof.Machine

/-! ## The cuts (R50, R51) -/

/-- The lane unit with the counter `c` counted (R165, R166). -/
def LaneUnit.counts (u : LaneUnit) (c : Counter) : LaneUnit :=
  if u.settings.inhibit.getLsbD c.index.val then u
  else if u.highNotice c then { u.bump c with noted := setBit8 u.noted c.index, rewrite := true }
  else u.bump c

theorem lane_count_same (s : State) (l : Lane) (c : Counter) : (s.count l c).lane l = (s.lane l).counts c := by
  simp only [State.count, LaneUnit.counts]
  split
  · rfl
  · split
    · exact lane_setLane_same ..
    · exact lane_setLane_same ..

theorem counts_eq (u : LaneUnit) (c : Counter) : u.counts c = { u with
    counters := u.counters.set c.index.val (u.counters[c.index.val] + if u.settings.inhibit.getLsbD c.index.val then 0 else 1)
    noted := (u.counts c).noted
    rewrite := (u.counts c).rewrite } := by
  unfold LaneUnit.counts
  split
  · simp
  · split <;> rfl

/-- The lane unit with the frame in assembly at port `p`, if any, cut and counted. -/
def LaneUnit.cutCounted (u : LaneUnit) (p : Port) : LaneUnit :=
  if (u.port p).frame = .assembling then (u.modPort p ScanPort.cut).counts .labelsRefused else u

/-- The lane unit at HALT. -/
def LaneUnit.halted (u : LaneUnit) : LaneUnit := (u.cutCounted .a).cutCounted .b

/-- From `s`, in STOPPING, to `t` only lanes and pending causes have moved. -/
def StoppingCuts (s t : State) : Prop := s.run.device = .stopping ∧ ∃ causes lanes, t = { s with run.causes := causes, lanes := lanes }

theorem StoppingCuts.device {s t : State} (h : StoppingCuts s t) : t.run.device = .stopping := by
  obtain ⟨device, causes, lanes, rfl⟩ := h
  exact device

theorem StoppingCuts.trans {s t u : State} (a : StoppingCuts s t) (b : StoppingCuts t u) : StoppingCuts s u := by
  obtain ⟨device, causes, lanes, rfl⟩ := a
  obtain ⟨-, causes, lanes, rfl⟩ := b
  exact ⟨device, causes, lanes, rfl⟩

theorem StoppingCuts.refl {s : State} (device : s.run.device = .stopping) : StoppingCuts s s := ⟨device, s.run.causes, s.lanes, rfl⟩

theorem count_eq (s : State) (l : Lane) (c : Counter) : ∃ causes lanes, s.count l c = { s with run.causes := causes, lanes := lanes } := by
  simp only [State.count]
  split
  · exact ⟨s.run.causes, s.lanes, rfl⟩
  · split
    · exact ⟨_, _, rfl⟩
    · exact ⟨s.run.causes, _, rfl⟩

/-- A cut in STOPPING stages nothing (R51). -/
theorem StoppingCuts.cutFrame {s : State} (device : s.run.device = .stopping) (l : Lane) (p : Port) : StoppingCuts s (s.cutFrame l p) := by
  rw [cutFrame_stopping device]
  split
  · have cut : StoppingCuts s (s.modPort l p ScanPort.cut) := ⟨device, s.run.causes, _, rfl⟩
    exact cut.trans ⟨cut.device, count_eq _ l .labelsRefused⟩
  · exact .refl device

theorem lane_cutFrame {s : State} (device : s.run.device = .stopping) (l : Lane) (p : Port) :
    (s.cutFrame l p).lane l = (s.lane l).cutCounted p := by
  rw [cutFrame_stopping device, LaneUnit.cutCounted]
  split
  · rw [lane_count_same, State.modPort, lane_modLane_same]
  · rfl

theorem cutAll_stopping {s : State} (device : s.run.device = .stopping) :
    StoppingCuts s s.cutAll ∧ ∀ l, s.cutAll.lane l = (s.lane l).halted := by
  refine forLanes_lane (StoppingCuts s) _ (fun _ u => u.halted) (fun l t h => ?_) (fun l t h => ?_) (fun l m t h other => ?_) s (.refl device)
  · have a := StoppingCuts.cutFrame h.device l .a
    exact (h.trans a).trans (.cutFrame a.device l .b)
  · have a := StoppingCuts.cutFrame h.device l .a
    rw [lane_cutFrame a.device, lane_cutFrame h.device]
    rfl
  · rw [(LaneStep.cutFrame l _ .b).others m other, (LaneStep.cutFrame l t .a).others m other]

/-! ## One lane at HALT -/

theorem cutCounted_port (u : LaneUnit) (p q : Port) : (u.cutCounted p).port q = if q = p then (u.port q).cut else u.port q := by
  unfold LaneUnit.cutCounted
  split
  · next assembling =>
    rw [counts_eq]
    cases p <;> cases q <;> rfl
  · next other =>
    split
    · next same => rw [same, ScanPort.cut, if_neg other]
    · rfl

theorem cutCounted_eq (u : LaneUnit) (p : Port) : u.cutCounted p = { u with
    portA := (u.cutCounted p).portA
    portB := (u.cutCounted p).portB
    counters := u.counters.set 1 (u.counters[1] +
      if (u.port p).frame = .assembling ∧ u.settings.inhibit.getLsbD 1 = false then 1 else 0)
    noted := (u.cutCounted p).noted
    rewrite := (u.cutCounted p).rewrite } := by
  unfold LaneUnit.cutCounted
  split
  · next assembling =>
    rw [counts_eq]
    cases p <;> cases off : u.settings.inhibit[1] <;> simp [LaneUnit.modPort, Counter.index, assembling, off]
  · next other => simp [other]

/-- The lane unit at HALT, of which only ports, the refused count and what follows from it have moved. -/
theorem halted_spec (u : LaneUnit) :
    (∀ p, u.halted.port p = (u.port p).cut) ∧
      u.halted.counters[1] = u.counters[1] + (if u.settings.inhibit.getLsbD 1 then 0
        else BitVec.ofNat 16 ([Port.a, Port.b].filter fun p => (u.port p).frame = .assembling).length) ∧
      u.halted = { u with
        portA := u.halted.portA
        portB := u.halted.portB
        counters := u.counters.set 1 u.halted.counters[1]
        noted := u.halted.noted
        rewrite := u.halted.rewrite } := by
  have portB : (u.cutCounted .a).port .b = u.port .b := by rw [cutCounted_port, if_neg (by decide)]
  have settings : (u.cutCounted .a).settings = u.settings := by rw [cutCounted_eq]
  have first := cutCounted_eq u .a
  have second := cutCounted_eq (u.cutCounted .a) .b
  rw [portB, settings] at second
  refine ⟨fun p => ?_, ?_, ?_⟩
  · rw [LaneUnit.halted, cutCounted_port]
    cases p
    · rw [if_neg (by decide), cutCounted_port, if_pos rfl]
    · rw [if_pos rfl, portB]
  · rw [LaneUnit.halted, second, first]
    cases u.settings.inhibit.getLsbD 1 <;> by_cases a : u.portA.frame = .assembling <;> by_cases b : u.portB.frame = .assembling <;>
      simp [a, b, LaneUnit.port, BitVec.add_assoc]
  · unfold LaneUnit.halted
    generalize (u.cutCounted .a).cutCounted .b = w at second ⊢
    rw [second, first]
    simp

/-! ## The walker and the end of the drain (R133, R152) -/

/-- A PARKED or BROKEN walker has nothing in hand, and reports at once. -/
def Walker.idles (w : Walker) : Prop := w.state = .parked ∨ w.state = .broken

theorem haltIdleWalker_idle {s : State} (idle : s.walker.idles) : s.haltIdleWalker = s.haltWalker := by
  rcases idle with e | e <;> simp only [State.haltIdleWalker, e]

theorem haltIdleWalker_busy {s : State} (busy : ¬s.walker.idles) : s.haltIdleWalker = s := by
  unfold State.haltIdleWalker
  split
  · next e => exact absurd (.inl e) busy
  · next e => exact absurd (.inr e) busy
  all_goals rfl

/-- What HALT itself leaves, before the end of the event. -/
structure Halted (s m : State) : Prop where
  device : m.run.device = .stopping
  walkerDone : m.run.walkerDone = true ↔ s.run.walkerDone = true ∨ s.walker.idles
  journalDone : m.run.journalDone = s.run.journalDone
  lanes : ∀ l, m.lane l = (s.lane l).halted
  staging : m.staging = s.staging
  hostMem : m.hostMem = s.hostMem
  journal : m.journal = s.journal
  dma : m.dma = s.dma
  walker : m.walker = match s.walker.state with
    | .parked | .broken => { s.walker with state := .halted, recheck := none, reread := false, rehead := false }
    | _ => s.walker

/-- The cuts of HALT leave every block but the lanes and the pending causes. -/
theorem beginStop_cutAll (s : State) : ∃ causes,
    s.beginStop.cutAll.run = { s.run with device := .stopping, causes := causes } ∧ s.beginStop.cutAll.staging = s.staging ∧
      s.beginStop.cutAll.hostMem = s.hostMem ∧ s.beginStop.cutAll.journal = s.journal ∧ s.beginStop.cutAll.dma = s.dma ∧
      s.beginStop.cutAll.walker = s.walker ∧ ∀ l, s.beginStop.cutAll.lane l = (s.lane l).halted := by
  obtain ⟨⟨-, causes, lanes, eq⟩, lane⟩ := cutAll_stopping (s := s.beginStop) rfl
  generalize s.beginStop.cutAll = x at *
  subst eq
  exact ⟨causes, rfl, rfl, rfl, rfl, rfl, rfl, lane⟩

theorem halted_stopRun (s : State) : Halted s s.stopRun := by
  obtain ⟨causes, run, staging, hostMem, journal, dma, walker, lane⟩ := beginStop_cutAll s
  have cut : s.stopRun = s.beginStop.cutAll.haltIdleWalker := rfl
  rw [cut]
  generalize s.beginStop.cutAll = x at *
  by_cases idle : s.walker.idles
  · rw [haltIdleWalker_idle (by rw [walker]; exact idle)]
    refine ⟨?_, iff_of_true rfl (.inr idle), ?_, lane, staging, hostMem, journal, dma, ?_⟩
    · show x.run.device = _
      rw [run]
    · show x.run.journalDone = _
      rw [run]
    · show { x.walker with state := .halted, recheck := none, reread := false, rehead := false } = _
      rw [walker]
      rcases idle with e | e <;> rw [e]
  · rw [haltIdleWalker_busy (by rw [walker]; exact idle)]
    refine ⟨by rw [run], ?_, by rw [run], lane, staging, hostMem, journal, dma, walker.trans ?_⟩
    · rw [run]
      exact ⟨.inl, fun h => h.resolve_right idle⟩
    · split
      · next e => exact absurd (.inl e) idle
      · next e => exact absurd (.inr e) idle
      · rfl

/-- At the end of the drain the journal writer has nothing more to do: it is STARVED or BROKEN, or its page is free and holds no record. -/
def State.drainOver (s : State) : Prop :=
  s.journal.state = .starved ∨ s.journal.state = .broken ∨ ∃ page, s.pageFree page ∧ page.count = 0

theorem settle_halts {m : State} (ends : m.drained = true) (finished : m.drainOver) : ∃ j, Halts m m.settle j := by
  have pump : m.pumpRecord = m := pumpRecord_idle (.inl (queue_of_drained ends))
  rcases finished with e | e | ⟨page, free, empty⟩
  · exact ⟨_, halts_settle (n := m) (by rw [pump, pumpDrain_halts ends (.inl e)]) rfl rfl⟩
  · exact ⟨_, halts_settle (n := m) (by rw [pump, pumpDrain_halts ends (.inr e)]) rfl rfl⟩
  · exact ⟨_, (settle_drainEnds free ends).2 empty⟩

/-- Otherwise the drain goes on, or has not come to its end. -/
theorem settle_drains {m : State} (goesOn : ¬(m.drained = true ∧ m.drainOver)) : m.settle.run = m.run := by
  cases ends : m.drained with
  | false => exact settle_run ends
  | true =>
    have notOver : ¬m.drainOver := fun finished => goesOn ⟨ends, finished⟩
    simp only [State.drainOver, not_or] at notOver
    obtain ⟨notStarved, notBroken, noPage⟩ := notOver
    by_cases h : ∃ page, m.pageFree page
    · obtain ⟨page, free⟩ := h
      exact ((settle_drainEnds free ends).1 fun empty => noPage ⟨page, free, empty⟩).1
    · exact (settle_journalStays (.inl (queue_of_drained ends)) (.inr ⟨notStarved, notBroken, not_exists.1 h⟩)).2.1

theorem not_ready {s : State} (other : s.run.device ≠ .running) (l : Lane) (p : Port) : s.ready l p = false := by
  rw [State.ready, beq_eq_false_iff_ne.2 other]
  rfl

theorem exec_halt {s : State} (running : s.run.device = .running) : exec .halt s = .next s.stopRun.settle := by
  show execHalt s = _
  rw [execHalt, running]

/-- Settles O7: what HALT leaves by `halted_stopRun`, and the end of its event by whether the drain is over. -/
theorem haltTaken : Obligations.HaltTaken := by
  unfold Obligations.HaltTaken
  refine fun s => ⟨fun running => ?_, fun notRunning => ?_⟩
  · intro done ended
    obtain ⟨device, walkerDone, journalDone, lanes, staging, hostMem, journal, dma, walker⟩ := halted_stopRun s
    have ran := exec_halt running
    generalize s.stopRun = m at *
    have losses (l : Lane) : (m.lane l).losses = (s.lane l).losses := by rw [lanes, (halted_spec (s.lane l)).2.2]
    have finished : ended ↔ m.drained = true ∧ m.drainOver := by
      rw [drained_iff, State.drainEnds, State.drainOver]
      simp only [State.pageFree, journal, dma, staging, losses, device, walkerDone, true_and, and_assoc]
      show done ∧ _ ↔ done ∧ _
      refine and_congr_right' (and_congr_right' (and_congr_right' (or_congr_right (or_congr_right ?_))))
      exact ⟨fun ⟨filling, free, page, open_, notClosing, empty⟩ => ⟨page, filling, open_, notClosing, free, empty⟩,
        fun ⟨page, filling, open_, notClosing, free, empty⟩ => ⟨filling, free, page, open_, notClosing, empty⟩⟩
    have frame := settle_frame m
    have ends (h : ended) : ∃ j, Halts m m.settle j := settle_halts (finished.1 h).1 (finished.1 h).2
    have goesOn (h : ¬ended) : m.settle.run = m.run := settle_drains (mt finished.2 h)
    refine ⟨m.settle, ran, ?_, fun h => ?_, fun h => ?_, fun l => ⟨fun h => ?_, fun h => ?_⟩, not_ready ?_, fun l p => ?_, fun l => ?_,
      fun l => ?_, frame.staging.trans staging, frame.hostMem.trans hostMem, frame.walker.trans walker⟩
    · by_cases h : ended
      · obtain ⟨j, -, run, -⟩ := ends h
        rw [run]
        exact walkerDone
      · rw [goesOn h]
        exact walkerDone
    · obtain ⟨j, journal, run, -⟩ := ends h
      rw [run, journal]
      exact ⟨rfl, rfl, rfl⟩
    · rw [goesOn h]
      exact ⟨device, journalDone⟩
    · obtain ⟨j, -, -, -, kb⟩ := ends h
      exact kb l
    · rw [frame.captures (by rw [goesOn h]) l, lanes l, (halted_spec (s.lane l)).2.2]
    · by_cases h : ended
      · obtain ⟨j, -, run, -⟩ := ends h
        rw [run]
        simp
      · rw [goesOn h, device]
        simp
    · rw [frame.lanes l, lanes l, ← cut_eq, ← (halted_spec (s.lane l)).1 p]
      cases p <;> rfl
    · rw [frame.lanes l, lanes l]
      exact (halted_spec (s.lane l)).2.1
    · rw [frame.lanes l, lanes l]
      have unit := (halted_spec (s.lane l)).2.2
      generalize (s.lane l).halted = v at unit ⊢
      rw [unit]
      simp
  · show execHalt s = _
    unfold execHalt
    split
    · next e => exact absurd e notRunning
    all_goals rfl

end Sys2Proof.Machine
end

section
/-! PROOFS. The fetch of a page (O22): its link read and its header read, outside and at the end of the drain (chapter 7.3). -/

namespace Sys2Proof.Machine

/-! ## The state in which a request has completed (R167) -/

/-- The bytes of the write `g` are in host memory, and the engine is free. -/
def State.completed (s : State) (g : Grant) : State := { s with hostMem := memWrite s.hostMem g.address g.req.data, dma.granted := none }

theorem complete_completed {s : State} {g : Grant} (granted : s.dma.granted = some g) : s.complete = s.completed g := complete_eq granted

theorem completed_idle {s : State} {g : Grant} (none : s.dma.waitJ = none) : (s.completed g).dma.busy .journal = false := by
  simp [State.completed, Arbiter.busy, Arbiter.holds, none]

/-! ## Stalls and episodes -/

theorem clearStall_eq (s : State) (owner : StallOwner) : ∃ rewrite, s.clearStall owner = { s with unit := { s.unit with
    stall := if s.unit.stall.owner = owner then .none else s.unit.stall, devRewrite := rewrite } } := by
  unfold State.clearStall
  split
  · exact ⟨true, rfl⟩
  · exact ⟨s.unit.devRewrite, rfl⟩

theorem endEpisode_eq (s : State) : ∃ rewrite, s.endEpisode = { s with
    journal := { s.journal with episode := false, recheck := none }, unit.devRewrite := rewrite } := by
  unfold State.endEpisode
  split
  · exact ⟨true, rfl⟩
  · next none =>
    refine ⟨s.unit.devRewrite, ?_⟩
    rw [Bool.not_eq_true] at none
    rw [← none]

theorem beginEpisode_eq (s : State) : ∃ rewrite, s.beginEpisode = { s with
    journal := { s.journal with episode := true, recheck := if s.journal.episode then s.journal.recheck else s.unit.host.recheckTimer }
    run.causes := if s.journal.episode then s.run.causes else s.run.causes ||| Cause.starved.bit
    unit.devRewrite := rewrite } := by
  unfold State.beginEpisode
  cases episode : s.journal.episode
  · exact ⟨true, rfl⟩
  · refine ⟨s.unit.devRewrite, ?_⟩
    simp only [if_true]
    rw [← episode]

/-! ## A fetch that ends without a page -/

/-- A fetch has ended STARVED (R120, R121). -/
def State.starvedOn (s : State) (stale : Option Word32) (rewrite : Bool) : State :=
  { s with
    journal := { s.journal with
      state := .starved
      stale := stale
      episode := true
      recheck := if s.journal.episode then s.journal.recheck else s.unit.host.recheckTimer
      reread := false
      rehead := false }
    run.causes := if s.journal.episode then s.run.causes else s.run.causes ||| Cause.starved.bit
    unit := { s.unit with
      stall := match stale with
        | some o => { offset := o, reason := .stalePage, owner := .journal }
        | none => s.unit.stall
      devRewrite := rewrite } }

/-- A fetch has ended BROKEN (R123). -/
def State.brokenOn (s : State) (link : Word32) (rewrite : Bool) : State :=
  { s with
    journal := { s.journal with
      state := .broken, stale := none, episode := false, recheck := none, reread := false, rehead := false }
    run.causes := s.run.causes ||| Cause.chain.bit
    unit := { s.unit with stall := { offset := link, reason := .badPageLink, owner := .journal }, devRewrite := rewrite } }

theorem fetchStarved_goes {s : State} (stale : Option Word32) (goes : s.drained = false) : ∃ rewrite, s.fetchStarved stale =
    if s.journal.reread || s.journal.rehead then (s.starvedOn stale rewrite).startFetch else s.starvedOn stale rewrite := by
  unfold State.fetchStarved
  rw [if_neg (by simp [goes])]
  cases stale with
  | none =>
    obtain ⟨rewrite, eq⟩ := beginEpisode_eq { s with journal.stale := none }
    refine ⟨rewrite, ?_⟩
    dsimp only
    rw [eq]
    rfl
  | some o =>
    obtain ⟨rewrite, eq⟩ := beginEpisode_eq ({ s with journal.stale := some o }.recordStall .journal .stalePage o)
    refine ⟨rewrite, ?_⟩
    dsimp only
    rw [eq]
    rfl

theorem fetchBroken_eq (s : State) (link : Word32) : ∃ rewrite, s.fetchBroken link =
    if (s.brokenOn link rewrite).drained then (s.brokenOn link rewrite).haltJournal
    else if s.journal.rehead then (s.brokenOn link rewrite).startFetch else s.brokenOn link rewrite := by
  obtain ⟨rewrite, eq⟩ := endEpisode_eq ((s.raise .chain).recordStall .journal .badPageLink link)
  refine ⟨rewrite, ?_⟩
  unfold State.fetchBroken
  rw [eq]
  rfl

/-! ## The end of such an event -/

theorem settle_stall (m : State) : m.settle.unit.stall = m.unit.stall := by rw [(settle_frame m).unit]

/-- Outside the end of the drain the journal writer stays as it is when it has no page to work on. -/
theorem settle_journal_goes {m : State} (goes : m.drained = false) (noPage : m.journal.state ≠ .filling) : m.settle.journal = m.journal :=
  (settle_frame m).stays noPage fun ends => absurd (goes.symm.trans ends) (by simp)

/-- What follows a fetch that a NOTIFY or a REHEAD_PAGES has asked to be made again: `m` is where it ended. -/
theorem settle_again (m : State) :
    m.startFetch.settle.journal = { m.journal with state := .needPage } ∧ m.startFetch.settle.unit.stall = m.unit.stall ∧
      m.startFetch.settle.asks .journal (readRequest .pageLinkRead m.journal.linkOffset 4) :=
  ⟨settle_journal_fetching (.inl rfl), settle_stall _, asks_settle (asks_startFetch m)⟩

theorem starved_settle {s : State} (stale : Option Word32) (goes : s.drained = false) :
    (s.journal.reread = false → s.journal.rehead = false → (s.fetchStarved stale).settle.journal = (s.starvedOn stale false).journal) ∧
      (s.journal.reread = true ∨ s.journal.rehead = true →
        (s.fetchStarved stale).settle.journal = { (s.starvedOn stale false).journal with state := .needPage } ∧
          (s.fetchStarved stale).settle.asks .journal (readRequest .pageLinkRead s.journal.linkOffset 4)) ∧
      (s.fetchStarved stale).settle.run = (s.starvedOn stale false).run ∧
      (s.fetchStarved stale).settle.unit.stall = (s.starvedOn stale false).unit.stall := by
  obtain ⟨rewrite, eq⟩ := fetchStarved_goes stale goes
  have stays : (s.starvedOn stale rewrite).drained = false := goes
  by_cases again : (s.journal.reread || s.journal.rehead) = true
  · rw [if_pos again] at eq
    rw [eq]
    obtain ⟨journal, stall, asks⟩ := settle_again (s.starvedOn stale rewrite)
    rw [Bool.or_eq_true] at again
    exact ⟨fun a b => by simp [a, b] at again, fun _ => ⟨journal, asks⟩, settle_run (s := (s.starvedOn stale rewrite).startFetch) stays, stall⟩
  · rw [if_neg again] at eq
    rw [eq]
    simp only [Bool.or_eq_true] at again
    exact ⟨fun _ _ => settle_journal_goes stays (by simp [State.starvedOn]), fun h => absurd h again, settle_run stays, settle_stall _⟩

theorem broken_settle {s : State} (link : Word32) (goes : s.drained = false) :
    (s.journal.rehead = false → (s.fetchBroken link).settle.journal = (s.brokenOn link false).journal) ∧
      (s.journal.rehead = true → (s.fetchBroken link).settle.journal.state = .needPage ∧
          (s.fetchBroken link).settle.asks .journal (readRequest .pageLinkRead s.journal.linkOffset 4)) ∧
      (s.fetchBroken link).settle.run = (s.brokenOn link false).run ∧
      (s.fetchBroken link).settle.unit.stall = (s.brokenOn link false).unit.stall := by
  obtain ⟨rewrite, eq⟩ := fetchBroken_eq s link
  have stays : (s.brokenOn link rewrite).drained = false := goes
  rw [if_neg (by simp [stays])] at eq
  cases again : s.journal.rehead
  · rw [again, if_neg (by decide)] at eq
    rw [eq]
    exact ⟨fun _ => settle_journal_goes stays (by simp [State.brokenOn]), fun h => absurd h (by decide), settle_run stays, settle_stall _⟩
  · rw [again, if_pos rfl] at eq
    rw [eq]
    obtain ⟨journal, stall, asks⟩ := settle_again (s.brokenOn link rewrite)
    exact ⟨fun h => absurd h (by decide), fun _ => ⟨by rw [journal], asks⟩,
      settle_run (s := (s.brokenOn link rewrite).startFetch) stays, stall⟩

/-- What follows the report of the journal writer at the end of the drain (R133). -/
theorem settle_haltJournal (m : State) : m.haltJournal.settle.journal = { m.journal with
      state := .halted, linger := none, recheck := none, episode := false, reread := false, rehead := false } ∧
    m.haltJournal.settle.run = { m.run with device := .stopped, journalDone := true } ∧
    m.haltJournal.settle.unit.stall = m.unit.stall := by
  obtain ⟨journal, run, unit, -⟩ := haltJournal_spec m
  refine ⟨(settle_journal_fetching (.inr (by rw [journal]))).trans journal, (settle_run (drained_of_device ?_)).trans run,
    (settle_stall _).trans (by rw [unit])⟩
  rw [run]
  simp

/-! ## The two reads -/

theorem exec_pageLink {s : State} {g : Grant} (link : Word32) (granted : s.dma.granted = some g)
    (purpose : g.req.purpose = .pageLinkRead) : exec (.pageLinkReadComplete link) s = .next (s.complete.pageLink link).settle := by
  show execPageLinkReadComplete link s = _
  rw [execPageLinkReadComplete, purpose_of_granted granted purpose]

theorem exec_pageHeader {s : State} {g : Grant} {offset : Word32} (st : Byte) (granted : s.dma.granted = some g)
    (purpose : g.req.purpose = .pageHeaderRead offset) :
    exec (.pageHeaderReadComplete st) s = .next (s.complete.pageHeader offset st).settle := by
  show execPageHeaderReadComplete st s = _
  rw [execPageHeaderReadComplete, purpose_of_granted granted purpose]

theorem validPage_iff (h : HostSettings) {link : Word32} (nonzero : link ≠ 0) :
    validPage h link = true ↔ link.toNat % 64 = 0 ∧ link.toNat + pageSize h.pageCode ≤ h.areaLength := by
  rw [validPage, Bool.and_eq_true, Bool.and_eq_true, bne_iff_ne, beq_iff_eq, decide_eq_true_eq]
  exact ⟨fun ⟨⟨_, a⟩, b⟩ => ⟨a, b⟩, fun ⟨a, b⟩ => ⟨⟨nonzero, a⟩, b⟩⟩

theorem pageLink_valid {s : State} {link : Word32} (nonzero : link ≠ 0)
    (valid : link.toNat % 64 = 0 ∧ link.toNat + pageSize s.unit.host.pageCode ≤ s.unit.host.areaLength) :
    s.pageLink link = s.request .journal (readRequest (.pageHeaderRead link) link 1) := by
  rw [State.pageLink, if_neg nonzero, if_pos ((validPage_iff _ nonzero).2 valid)]

theorem pageLink_bad {s : State} {link : Word32} (nonzero : link ≠ 0)
    (bad : ¬(link.toNat % 64 = 0 ∧ link.toNat + pageSize s.unit.host.pageCode ≤ s.unit.host.areaLength)) :
    s.pageLink link = s.fetchBroken link := by
  rw [State.pageLink, if_neg nonzero, if_neg (mt (validPage_iff _ nonzero).1 bad)]

theorem pageLink_zero (s : State) : s.pageLink 0 = (s.clearStall .journal).fetchStarved none := if_pos rfl

/-- The state in which the fetch of a link of zero ends: the journal writer's stall is cleared. -/
theorem clearStall_drained (s : State) (owner : StallOwner) : (s.clearStall owner).drained = s.drained := by
  obtain ⟨rewrite, eq⟩ := clearStall_eq s owner
  rw [eq]; rfl

theorem pageLink_drained {s : State} (ends : s.drained = true) :
    ((s.pageLink 0).settle.journal = { s.journal with
        state := .halted, linger := none, recheck := none, episode := false, stale := none, reread := false, rehead := false } ∧
      (s.pageLink 0).settle.run = { s.run with device := .stopped, journalDone := true } ∧
      (s.pageLink 0).settle.unit.stall = if s.unit.stall.owner = .journal then .none else s.unit.stall) := by
  obtain ⟨rewrite, eq⟩ := clearStall_eq s .journal
  have cleared := (clearStall_drained s .journal).trans ends
  rw [pageLink_zero]
  rw [eq] at cleared ⊢
  rw [State.fetchStarved, if_pos cleared]
  exact settle_haltJournal _

theorem fetchBroken_drained {s : State} (link : Word32) (ends : s.drained = true) :
    ((s.fetchBroken link).settle.journal = { s.journal with
        state := .halted, linger := none, recheck := none, episode := false, stale := none, reread := false, rehead := false } ∧
      (s.fetchBroken link).settle.run =
        { s.run with device := .stopped, journalDone := true, causes := s.run.causes ||| Cause.chain.bit } ∧
      (s.fetchBroken link).settle.unit.stall = { offset := link, reason := .badPageLink, owner := .journal }) := by
  obtain ⟨rewrite, eq⟩ := fetchBroken_eq s link
  have stays : (s.brokenOn link rewrite).drained = true := ends
  rw [eq, if_pos stays]
  exact settle_haltJournal _

/-- A FREE page is open (R125): what `openPage` leaves. -/
theorem openPage_eq (s : State) (offset : Word32) : ∃ rewrite, s.openPage offset = { s with
    journal := { s.journal with
      state := .filling
      page := some { offset := offset, used := 0, count := 0, firstSeq := none, openTime := s.run.clock, lanes := 0, closing := none,
                     closeTime := 0, lingerDue := false }
      stale := none
      reread := false
      rehead := false
      episode := false
      recheck := none
      linger := if s.journal.unannounced = 0 then none else s.unit.host.lingerTimer }
    unit := { s.unit with stall := if s.unit.stall.owner = .journal then .none else s.unit.stall, devRewrite := rewrite } } := by
  obtain ⟨r, cleared⟩ := clearStall_eq s .journal
  obtain ⟨rewrite, ended⟩ := endEpisode_eq (s.clearStall .journal)
  refine ⟨rewrite, ?_⟩
  unfold State.openPage
  rw [ended, cleared]

/-- A page opened at the end of the drain is released (R133). -/
theorem openPage_drained {s : State} (offset : Word32) (ends : s.drained = true) (free : s.dma.busy .journal = false) :
    ∃ j, Halts (s.openPage offset) (s.openPage offset).settle j ∧ j = { (s.openPage offset).journal with page := none } := by
  obtain ⟨rewrite, eq⟩ := openPage_eq s offset
  have stays : (s.openPage offset).drained = true := by rw [eq]; exact ends
  have page : (s.openPage offset).pageFree ⟨offset, 0, 0, none, s.run.clock, 0, none, 0, false⟩ := by
    rw [eq]
    exact ⟨rfl, rfl, rfl, free⟩
  exact ⟨_, (settle_drainEnds page stays).2 rfl, rfl⟩

theorem pageHeader_stale (s : State) (offset : Word32) {st : Byte} (notFree : st ≠ 0) :
    s.pageHeader offset st = s.fetchStarved (some offset) := if_neg notFree

theorem pageHeader_free (s : State) (offset : Word32) : s.pageHeader offset 0 = s.openPage offset := if_pos rfl

theorem fetchStarved_drained {s : State} (o : Word32) (ends : s.drained = true) :
    (s.fetchStarved (some o)).settle.journal = { s.journal with
        state := .halted, linger := none, recheck := none, episode := false, reread := false, rehead := false } ∧
      (s.fetchStarved (some o)).settle.run = { s.run with device := .stopped, journalDone := true } := by
  have halts : s.fetchStarved (some o) = ({ s with journal.stale := s.journal.stale } : State).haltJournal := by
    rw [State.fetchStarved, if_pos ends]
    rfl
  rw [halts]
  exact ⟨(settle_haltJournal _).1, (settle_haltJournal _).2.1⟩

/-- Settles O22: each case of the two reads by what it leaves, from the state in which the read has completed. -/
theorem pageFetch : Obligations.PageFetch := by
  unfold Obligations.PageFetch
  refine ⟨fun s g link granted purpose => ?_, fun s g offset st granted purpose => ?_⟩
  · have ran := exec_pageLink link granted purpose
    rw [complete_completed granted] at ran
    refine ⟨fun zero goes => ?_, fun nonzero valid => ?_, fun nonzero bad goes => ?_, fun ends => ⟨fun zero => ?_, fun nonzero bad => ?_⟩⟩
    · subst zero
      rw [pageLink_zero] at ran
      obtain ⟨rewrite, cleared⟩ := clearStall_eq (s.completed g) .journal
      have goesOn := (clearStall_drained (s.completed g) .journal).trans goes
      obtain ⟨stays, again, run, -⟩ := starved_settle none goesOn
      generalize (s.completed g).clearStall .journal = x at *
      subst cleared
      refine ⟨_, ran, fun a b => (stays a b).trans ?_, fun h => ?_, by rw [run]; rfl, by rw [run]; rfl⟩
      · simp only [State.starvedOn, State.completed, a, b]
        rfl
      · obtain ⟨journal, asks⟩ := again h
        rw [journal]
        exact ⟨rfl, rfl, rfl, asks⟩
    · rw [pageLink_valid nonzero (by exact valid)] at ran
      exact ⟨_, _, ran, settle_frame _, rfl, asks_settle (asks_request _ _ _)⟩
    · rw [pageLink_bad nonzero (by exact bad)] at ran
      obtain ⟨stays, again, run, stall⟩ := broken_settle (s := s.completed g) link goes
      exact ⟨_, ran, run, stall, stays, again⟩
    · subst zero
      exact ⟨_, ran, pageLink_drained (s := s.completed g) ends⟩
    · rw [pageLink_bad nonzero (by exact bad)] at ran
      exact ⟨_, ran, fetchBroken_drained (s := s.completed g) link ends⟩
  · have ran := exec_pageHeader st granted purpose
    rw [complete_completed granted] at ran
    refine ⟨fun zero goes => ?_, fun stale goes => ?_, fun ends waits => ?_⟩
    · subst zero
      rw [pageHeader_free] at ran
      obtain ⟨rewrite, eq⟩ := openPage_eq (s.completed g) offset
      refine ⟨_, _, ran, settle_frame _, ?_⟩
      have goesOn : ((s.completed g).openPage offset).drained = false := by rw [eq]; exact goes
      have filling := (settle_frame ((s.completed g).openPage offset)).filling goesOn
      generalize (s.completed g).openPage offset = m at *
      subst eq
      exact ⟨rfl, filling rfl, rfl, rfl, rfl⟩
    · rw [pageHeader_stale _ _ stale] at ran
      obtain ⟨stays, again, run, stall⟩ := starved_settle (s := s.completed g) (some offset) goes
      generalize ((s.completed g).fetchStarved (some offset)).settle = t at *
      by_cases asked : s.journal.reread = true ∨ s.journal.rehead = true
      · obtain ⟨journal, asks⟩ := again asked
        refine ⟨t, ran, ?_, ?_, stall, by rw [run]; rfl, ?_, ?_, ?_⟩
        iterate 4 rw [journal]; rfl
        rw [if_pos asked, journal]
        exact ⟨rfl, asks⟩
      · obtain ⟨notReread, notRehead⟩ := not_or.1 asked
        have journal := stays (eq_false_of_ne_true notReread) (eq_false_of_ne_true notRehead)
        refine ⟨t, ran, ?_, ?_, stall, by rw [run]; rfl, ?_, ?_, ?_⟩
        iterate 4 rw [journal]; rfl
        rw [if_neg asked, journal]
        rfl
    · have idle := completed_idle (g := g) waits
      by_cases zero : st = 0
      · subst zero
        rw [pageHeader_free] at ran
        obtain ⟨j, ⟨journal, run, -⟩, page⟩ := openPage_drained (s := s.completed g) offset ends idle
        obtain ⟨rewrite, eq⟩ := openPage_eq (s.completed g) offset
        generalize ((s.completed g).openPage offset).settle = t at *
        generalize (s.completed g).openPage offset = m at *
        subst eq page
        rw [if_pos rfl]
        refine ⟨t, ran, ?_, fun _ => ?_, ?_, ?_, run, ?_, ?_⟩ <;> rw [journal] <;> rfl
      · rw [pageHeader_stale _ _ zero] at ran
        obtain ⟨journal, run⟩ := fetchStarved_drained (s := s.completed g) offset ends
        generalize ((s.completed g).fetchStarved (some offset)).settle = t at *
        rw [if_neg zero]
        refine ⟨t, ran, ?_, fun h => absurd h zero, ?_, ?_, run, ?_, ?_⟩ <;> rw [journal] <;> rfl

end Sys2Proof.Machine
end

section
/-! PROOFS. The writes that close a page, and the timers of the two chains (O24, O25). -/

namespace Sys2Proof.Machine

/-! ## The close of a page (R131, R132, R149) -/

theorem exec_headerBody {s : State} {g : Grant} (granted : s.dma.granted = some g) (purpose : g.req.purpose = .headerBodyWrite) :
    exec .headerBodyWriteComplete s = .next s.complete.bodyWritten.settle := by
  show execHeaderBodyWriteComplete s = _
  rw [execHeaderBodyWriteComplete, purpose_of_granted granted purpose]

theorem exec_closedMarker {s : State} {g : Grant} (granted : s.dma.granted = some g) (purpose : g.req.purpose = .closedMarkerWrite) :
    exec .closedMarkerWriteComplete s = .next s.complete.pageClosed.settle := by
  show execClosedMarkerWriteComplete s = _
  rw [execClosedMarkerWriteComplete, purpose_of_granted granted purpose]

/-- The page whose marker is written is closed, and has not yet been counted. -/
def State.closedPage (s : State) (page : OpenPage) : State :=
  { s with
    unit.devRewrite := true
    journal := { s.journal with
      pageSeq := s.journal.pageSeq + 1
      lastClosed := some page.offset
      fromAnchor := false
      page := none
      flush := if s.journal.flush == .page then .none else s.journal.flush } }

theorem announce_eq (s : State) (why : CloseReason) : s.announce why =
    if s.unit.host.notice ≤ s.journal.unannounced + 1 ∨ why ≠ .full then
      { s with journal.unannounced := 0, run.causes := s.run.causes ||| Cause.journal.bit }
    else { s with journal.unannounced := s.journal.unannounced + 1 } := rfl

/-- A FLUSH whose point the closed page holds has its answer (R149). -/
def State.flushAnswered (s : State) (flushed : Bool) (a : Answer) : State := if flushed then s.answer a else s

theorem answer_cases (s : State) (a : Answer) : ∃ dma walker, s.answer a = { s with dma := dma, walker := walker } := by
  unfold State.answer
  split
  · exact ⟨_, _, rfl⟩
  · exact ⟨s.dma, s.walker, rfl⟩

theorem flushAnswered_eq (s : State) (flushed : Bool) (a : Answer) :
    ∃ dma walker, s.flushAnswered flushed a = { s with dma := dma, walker := walker } := by
  unfold State.flushAnswered
  split
  · exact answer_cases s a
  · exact ⟨s.dma, s.walker, rfl⟩

theorem pageClosed_eq {s : State} {page : OpenPage} {why : CloseReason} (opened : s.journal.page = some page)
    (closing : page.closing = some why) :
    let w := ((s.closedPage page).announce why).flushAnswered (s.journal.flush == .page)
      (accepted why.code (byte4 page.offset ++ byte4 s.journal.pageSeq))
    s.pageClosed = if w.drained then w.haltJournal else w.startFetch := by
  unfold State.pageClosed
  rw [opened]
  dsimp only
  rw [closing]
  rfl

theorem asks_answer {s : State} {sl : Slip} (current : s.walker.current = some sl) (a : Answer) :
    (s.answer a).walker = { s.walker with state := .working, stage := .body a } ∧
      (s.answer a).asks .walker (writeRequest .slipBodyWrite (sl.offset + 0x1C) (a.body s.run.clock)) := by
  rw [answer_eq current]
  exact ⟨rfl, asks_request _ _ _⟩

/-- What a closed page leaves, before the journal writer goes on. -/
structure PageClosed (s w : State) (page : OpenPage) (why : CloseReason) : Prop where
  journal : w.journal = { s.journal with
    pageSeq := s.journal.pageSeq + 1
    lastClosed := some page.offset
    fromAnchor := false
    page := none
    flush := if s.journal.flush == .page then .none else s.journal.flush
    unannounced := w.journal.unannounced }
  staging : w.staging = s.staging
  run : w.run = { s.run with causes := w.run.causes }
  drained : w.drained = s.drained
  announced : if s.unit.host.notice ≤ s.journal.unannounced + 1 ∨ why ≠ .full then
      w.journal.unannounced = 0 ∧ w.run.causes = s.run.causes ||| Cause.journal.bit
    else w.journal.unannounced = s.journal.unannounced + 1 ∧ w.run.causes = s.run.causes
  answered : s.journal.flush = .page → ∀ sl, s.walker.current = some sl →
    let a := accepted why.code (byte4 page.offset ++ byte4 s.journal.pageSeq)
    w.walker = { s.walker with state := .working, stage := .body a } ∧
      w.asks .walker (writeRequest .slipBodyWrite (sl.offset + 0x1C) (a.body s.run.clock))
  silent : s.journal.flush ≠ .page → w.walker = s.walker

theorem announce_blocks (s : State) (why : CloseReason) : ∃ n causes,
    s.announce why = { s with journal.unannounced := n, run.causes := causes } ∧
      if s.unit.host.notice ≤ s.journal.unannounced + 1 ∨ why ≠ .full then n = 0 ∧ causes = s.run.causes ||| Cause.journal.bit
      else n = s.journal.unannounced + 1 ∧ causes = s.run.causes := by
  rw [announce_eq]
  split
  · exact ⟨_, _, rfl, rfl, rfl⟩
  · exact ⟨_, s.run.causes, rfl, rfl, rfl⟩

theorem pageClosed_spec (s : State) (page : OpenPage) (why : CloseReason) :
    PageClosed s (((s.closedPage page).announce why).flushAnswered (s.journal.flush == .page)
      (accepted why.code (byte4 page.offset ++ byte4 s.journal.pageSeq))) page why := by
  obtain ⟨n, causes, announced, counts⟩ := announce_blocks (s.closedPage page) why
  rw [announced]
  generalize flushed : (s.journal.flush == .page) = f
  obtain ⟨dma, walker, eq⟩ := flushAnswered_eq { s.closedPage page with
    journal.unannounced := n, run.causes := causes } f (accepted why.code (byte4 page.offset ++ byte4 s.journal.pageSeq))
  refine ⟨?_, ?_, ?_, ?_, ?_, fun flush sl current => ?_, fun other => ?_⟩
  · rw [eq]; rfl
  · rw [eq]; rfl
  · rw [eq]; rfl
  · rw [eq]; rfl
  · rw [eq]; exact counts
  · obtain rfl : f = true := by rw [← flushed, flush]; rfl
    exact asks_answer (s := { s.closedPage page with journal.unannounced := n, run.causes := causes }) current _
  · obtain rfl : f = false := by rw [← flushed]; exact beq_eq_false_iff_ne.2 other
    rfl

/-- The journal writer goes on: it has reported at the end of the drain, or fetches the next page. -/
def State.goOn (w : State) : State := if w.drained then w.haltJournal else w.startFetch

/-- Going on leaves what the close has left. -/
theorem goOn_keeps (w : State) : (w.goOn.journal = { w.journal with
      state := w.goOn.journal.state
      linger := w.goOn.journal.linger
      recheck := w.goOn.journal.recheck
      episode := w.goOn.journal.episode
      reread := w.goOn.journal.reread
      rehead := w.goOn.journal.rehead }) ∧
    w.goOn.staging = w.staging ∧ w.goOn.run.causes = w.run.causes ∧ w.goOn.walker = w.walker ∧
    ∀ r, w.asks .walker r → w.goOn.asks .walker r := by
  unfold State.goOn
  split
  · obtain ⟨journal, run, -, -, staging, walker, dma, -⟩ := haltJournal_spec w
    refine ⟨by rw [journal], staging, by rw [run], walker, fun r asks => ?_⟩
    rw [State.asks, dma]
    exact asks
  · exact ⟨rfl, rfl, rfl, rfl, fun r asks => asks_request_ne _ (by decide) asks⟩

theorem goOn_settle (w : State) : if w.drained then
      w.goOn.settle.journal.state = .halted ∧ w.goOn.settle.run.device = .stopped ∧ w.goOn.settle.run.journalDone = true
    else w.goOn.settle.journal.state = .needPage ∧ w.goOn.settle.run.device = w.run.device ∧
      w.goOn.settle.asks .journal (readRequest .pageLinkRead w.journal.linkOffset 4) := by
  unfold State.goOn
  split
  · obtain ⟨journal, run, -⟩ := settle_haltJournal w
    rw [journal, run]
    exact ⟨rfl, rfl, rfl⟩
  · next goes =>
    have stays : w.startFetch.drained = false := (Bool.not_eq_true _).mp goes
    exact ⟨by rw [(settle_again w).1], by rw [settle_run stays]; rfl, (settle_again w).2.2⟩

/-- Settles O24: what the closed page leaves by `pageClosed_spec`, and what follows it by whether the drain is at its end. -/
theorem closeWritten : Obligations.CloseWritten := by
  unfold Obligations.CloseWritten
  intro s g page granted opened
  refine ⟨fun purpose => ?_, fun why purpose closing => ?_⟩
  · have ran := exec_headerBody granted purpose
    rw [complete_completed granted] at ran
    have body : (s.completed g).bodyWritten = (s.completed g).request .journal (writeRequest .closedMarkerWrite page.offset [1]) := by
      show (match s.journal.page with
        | some page => (s.completed g).request .journal (writeRequest .closedMarkerWrite page.offset [1])
        | none => s.completed g) = _
      rw [opened]
    rw [body] at ran
    exact ⟨_, _, ran, settle_frame _, rfl, asks_settle (asks_request _ _ _)⟩
  · have ran := exec_closedMarker granted purpose
    rw [complete_completed granted, pageClosed_eq (s := s.completed g) opened closing] at ran
    obtain ⟨journal, staging, run, drained, announced, answered, silent⟩ := pageClosed_spec (s.completed g) page why
    generalize State.flushAnswered _ _ _ = w at *
    have ran : exec .closedMarkerWriteComplete s = .next w.goOn.settle := ran
    obtain ⟨kept, staging', causes, walker, asks⟩ := goOn_keeps w
    have ends := goOn_settle w
    have toWalker : w.goOn.settle.walker = w.goOn.walker := (settle_frame _).walker
    have settled : ∀ r, w.goOn.asks .walker r → w.goOn.settle.asks .walker r := fun _ => asks_settle
    have frame := settle_frame w.goOn
    generalize w.goOn.settle = t at *
    generalize w.goOn = m at *
    rw [drained] at ends
    have offset : w.journal.linkOffset = page.offset + 0x1C := by rw [journal]; rfl
    rw [offset] at ends
    have device : w.run.device = s.run.device := by rw [run]; rfl
    rw [device] at ends
    refine ⟨m, t, ran, frame, ?_, ?_, ?_, ?_, ?_, staging'.trans staging, ?_, ends, fun flush => ⟨?_, fun sl current => ?_⟩,
      fun other => ⟨?_, toWalker.trans (walker.trans (silent other))⟩⟩
    · rw [kept, journal]; rfl
    · rw [kept, journal]
    · rw [kept, journal]
    · rw [kept, journal]
    · rw [kept, journal]; rfl
    · rw [kept, causes]
      exact announced
    · rw [kept, journal]
      show (if (s.journal.flush == .page) = true then FlushPoint.none else s.journal.flush) = _
      rw [flush]; rfl
    · obtain ⟨taken, asked⟩ := answered flush sl current
      exact ⟨toWalker.trans (walker.trans taken), settled _ (asks _ asked)⟩
    · rw [kept, journal]
      exact if_neg fun e => other (beq_iff_eq.1 e)

/-! ## The timers (R121, R128, R139) -/

theorem exec_linger (s : State) : exec .lingerExpiry s = if isDue s.journal.linger then .next s.lingerExpired.settle else .next s := rfl

theorem exec_journalRecheck (s : State) :
    exec .journalRecheckExpiry s = if isDue s.journal.recheck then .next s.journalRecheck.settle else .next s := rfl

theorem exec_walkerRecheck (s : State) :
    exec .walkerRecheckExpiry s = if isDue s.walker.recheck then .next s.walkerRecheck.settle else .next s := rfl

theorem lingerExpired_eq {s : State} {page : OpenPage} (opened : s.journal.page = some page) (notClosing : page.closing = none) :
    s.lingerExpired =
      if page.count = 0 then { s with
        journal := { s.journal with unannounced := 0, linger := none }, run.causes := s.run.causes ||| Cause.journal.bit }
      else if s.dma.busy .journal then
        { s with journal := { s.journal with page := some { page with lingerDue := true }, linger := none } }
      else s.beginClose page .linger := by
  unfold State.lingerExpired
  rw [opened]
  dsimp only
  rw [notClosing]
  rfl

/-- Settles O25: each timer by what the state of its block lets it do. -/
theorem pageTimers : Obligations.PageTimers := by
  unfold Obligations.PageTimers
  refine ⟨fun s page opened notClosing => ?_, fun s => ?_⟩
  · have expired := lingerExpired_eq opened notClosing
    have ran (due : s.journal.linger = some 0) : exec .lingerExpiry s = .next s.lingerExpired.settle := by
      rw [exec_linger, if_pos ((isDue_iff _).2 due)]
    refine ⟨fun due empty => ?_, fun due records busy => ?_, fun due records idle => ?_, fun notDue => ?_⟩
    · rw [if_pos empty] at expired
      exact ⟨_, _, ran due, settle_frame _, expired⟩
    · rw [if_neg records, if_pos busy] at expired
      exact ⟨_, _, ran due, settle_frame _, expired⟩
    · rw [if_neg records, if_neg (by simp [idle])] at expired
      refine ⟨_, _, ran due, settle_frame _, ?_, s.closeRequest page .linger, asks_settle ?_, headerBody_closeRequest s page .linger⟩
      · rw [expired]; rfl
      · rw [expired]
        exact asks_beginClose_self s page .linger
    · rw [exec_linger, if_neg (mt (isDue_iff _).1 notDue)]
  · have journal (due : s.journal.recheck = some 0) : exec .journalRecheckExpiry s = .next s.journalRecheck.settle := by
      rw [exec_journalRecheck, if_pos ((isDue_iff _).2 due)]
    have walker (due : s.walker.recheck = some 0) : exec .walkerRecheckExpiry s = .next s.walkerRecheck.settle := by
      rw [exec_walkerRecheck, if_pos ((isDue_iff _).2 due)]
    refine ⟨fun due starved => ?_, fun due fetching => ?_, fun notDue => ?_, fun due parked => ?_, fun due fetching => ?_, fun notDue => ?_⟩
    · have reread : s.journalRecheck = s.journalReread := by simp only [State.journalRecheck, starved]
      rw [reread] at journal
      exact ⟨_, _, journal due, settle_frame _, rfl, asks_settle (asks_startFetch { s with journal.recheck := s.unit.host.recheckTimer })⟩
    · exact ⟨_, _, journal due, settle_frame _, by simp only [State.journalRecheck, fetching]⟩
    · rw [exec_journalRecheck, if_neg (mt (isDue_iff _).1 notDue)]
    · have reread : s.walkerRecheck = s.walkerReread := by simp only [State.walkerRecheck, parked]
      rw [reread] at walker
      exact ⟨_, _, walker due, settle_frame _, rfl,
        asks_settle (asks_walkerFetch { s with walker.recheck := s.unit.host.recheckTimer, unit.devRewrite := true } true)⟩
    · exact ⟨_, _, walker due, settle_frame _, by simp only [State.walkerRecheck, fetching]⟩
    · rw [exec_walkerRecheck, if_neg (mt (isDue_iff _).1 notDue)]

end Sys2Proof.Machine
end

section
/-! PROOFS. A record write and the end of the load (O23, O18). -/

namespace Sys2Proof.Machine

/-! ## A record write (R104, R106, R109, R126) -/

theorem exec_recordWrite {s : State} {g : Grant} (granted : s.dma.granted = some g) (purpose : g.req.purpose = .recordWrite) :
    exec .recordWriteComplete s = .next s.complete.recordWritten.settle := by
  show execRecordWriteComplete s = _
  rw [execRecordWriteComplete, purpose_of_granted granted purpose]

theorem hasLoss_iff (u : LaneUnit) : u.hasLoss = true ↔ ¬∀ i : Fin 4, u.losses[i] = 0 := by
  simp only [LaneUnit.hasLoss, Bool.or_eq_true, decide_eq_true_eq, Fin.forall_fin_succ, Fin.getElem_fin, not_and_or]
  simp
  omega

/-- The records of R109, by the pending counts themselves. -/
theorem recoveryRecords_eq (u : LaneUnit) : u.recoveryRecords =
    if ∀ i : Fin 4, u.losses[i] = 0 then []
    else .gap u.losses[0] u.losses[1] u.losses[2] u.losses[3] :: if u.losses[0] = 0 then [] else [u.imageRecord .resync] := by
  have loss := hasLoss_iff u
  unfold LaneUnit.recoveryRecords
  by_cases none : ∀ i : Fin 4, u.losses[i] = 0
  · rw [if_pos none, if_neg fun h => loss.1 h none]
  · rw [if_neg none, if_pos (loss.2 none)]
    by_cases zero : u.losses[0] = 0
    · rw [if_pos zero, if_neg (by omega)]
    · rw [if_neg zero, if_pos (by omega)]

/-- The close that a record write may bring. -/
def State.closeFor (s : State) (page : OpenPage) : Option CloseReason → State
  | some why => s.beginClose page why
  | none => s

theorem closeFor_blocks (s : State) (page : OpenPage) (why : Option CloseReason) :
    (s.closeFor page why).run = s.run ∧ (s.closeFor page why).walker = s.walker ∧ (s.closeFor page why).staging = s.staging ∧
    ∀ l, (s.closeFor page why).lane l = s.lane l := by
  cases why with
  | none => exact ⟨rfl, rfl, rfl, fun _ => rfl⟩
  | some why => exact ⟨rfl, rfl, rfl, fun _ => rfl⟩

theorem closeFor_journal {s : State} {page : OpenPage} (why : Option CloseReason) (opened : s.journal.page = some page)
    (still : why = none → page.lingerDue = false) : (s.closeFor page why).journal = { s.journal with
      page := some { page with
        closing := if why.isSome then why else page.closing
        closeTime := if why.isSome then s.run.clock else page.closeTime
        lingerDue := if why.isSome then false else page.lingerDue }
      linger := if why.isSome then none else s.journal.linger } := by
  cases why with
  | none => 
    show s.journal = _
    simp [← opened]
  | some why => rfl

theorem asks_closeFor {s : State} {page : OpenPage} {why : Option CloseReason} {w : CloseReason} (closes : why = some w) :
    ∃ q, (s.closeFor page why).settle.asks .journal q ∧ HeaderBody page w s.journal.pageSeq s.run.clock q := by
  subst closes
  exact ⟨_, asks_settle (asks_beginClose_self s page w), headerBody_closeRequest s page w⟩

/-- The open page and what a record write changes of the journal writer beside it, before a close. -/
def Journal.written (j : Journal) (h : HostSettings) (page : OpenPage) (r : StagedRecord) : Journal :=
  { j with
    page := some (page.withRecord r j.journalSeq)
    journalSeq := j.journalSeq + 1
    flush := j.flush.afterWrite
    linger := if page.count + 1 = 1 ∧ j.linger = none ∧ page.lingerDue = false then h.lingerTimer else j.linger }

theorem recordWritten_eq {s : State} {r : StagedRecord} {rest : List StagedRecord} {page : OpenPage}
    (queue : s.staging.queue = r :: rest) (opened : s.journal.page = some page) :
    let left := (s.leaveQueue rest (s.journal.written s.unit.host page r)).afterLeave
    s.recordWritten =
      left.closeFor (page.withRecord r s.journal.journalSeq)
        (closeAfterWrite left.unit.host (page.withRecord r s.journal.journalSeq) r (s.journal.flush == .record 0)) := by
  unfold State.recordWritten State.closeFor
  rw [queue, opened]
  rfl

/-- What the recovery step leaves of the state in which a record has left the queue. -/
theorem afterLeave_blocks (x : State) : x.afterLeave.journal = x.journal ∧ x.afterLeave.run = x.run ∧ x.afterLeave.walker = x.walker ∧
    x.afterLeave.unit = x.unit ∧ x.afterLeave.dma = x.dma := by
  obtain same | ⟨-, ⟨rs, stages, -⟩, -⟩ := afterLeave_cases x
  · rw [same]
    exact ⟨rfl, rfl, rfl, rfl, rfl⟩
  · exact ⟨stages.journal, stages.run, stages.walker, stages.unit, stages.dma⟩

theorem recovery_of_afterLeave {x : State} (low : x.staging.queue.length ≤ x.unit.host.flowLow) :
    let bodies (u : LaneUnit) : List RecordBody :=
      if ∀ i : Fin 4, u.losses[i] = 0 then [] else
        .gap u.losses[0] u.losses[1] u.losses[2] u.losses[3] :: if u.losses[0] = 0 then [] else [u.imageRecord .resync]
    let rs := allLanes.flatMap fun l => stamped l x.run.clock (x.lane l).seq (bodies (x.lane l))
    x.afterLeave.staging = { x.staging with
      queue := x.staging.queue ++ rs
      hold := decide (rs ≠ [] ∧ x.unit.host.flowHigh ≤ x.staging.queue.length + rs.length) } ∧
    ∀ l, x.afterLeave.lane l = { x.lane l with
      losses := Vector.replicate 4 0, seq := (x.lane l).seq + BitVec.ofNat 16 (bodies (x.lane l)).length } := by
  obtain ⟨stages, lanes⟩ := (afterLeave_spec x).2 low
  simp only [recoveryRecords_eq] at stages lanes
  exact ⟨by rw [stages.staging]; rfl, lanes⟩

theorem closeAfterWrite_eq (h : HostSettings) (page : OpenPage) (r : StagedRecord) (flush : FlushPoint) :
    closeAfterWrite h page r (flush == .record 0) =
      if page.lingerDue then some CloseReason.linger
      else if h.urgent ≤ r.body.cls then some CloseReason.urgent
      else if flush = .record 0 then some CloseReason.flush
      else if usableUnits h.pageCode - page.used < 2 then some CloseReason.full else none := by
  simp only [closeAfterWrite, beq_iff_eq]

/-- Settles O23: the state that the record has left, the recovery step on it, and the close that may follow. -/
theorem recordWritten : Obligations.RecordWritten := by
  unfold Obligations.RecordWritten
  intro s g r rest page granted purpose queue opened page' why
  have ran := exec_recordWrite granted purpose
  rw [complete_completed granted, recordWritten_eq (s := s.completed g) queue opened] at ran
  have low (h : rest.length ≤ s.unit.host.flowLow) := recovery_of_afterLeave
    (x := (s.completed g).leaveQueue rest ((s.completed g).journal.written (s.completed g).unit.host page r)) h
  have high (h : s.unit.host.flowLow < rest.length) := afterLeave_silent
    (s := (s.completed g).leaveQueue rest ((s.completed g).journal.written (s.completed g).unit.host page r)) h
  obtain ⟨journal, run, walker, unit, -⟩ :=
    afterLeave_blocks ((s.completed g).leaveQueue rest ((s.completed g).journal.written (s.completed g).unit.host page r))
  have staging (h : s.unit.host.flowLow < rest.length) := congrArg State.staging (high h)
  have lanes (h : s.unit.host.flowLow < rest.length) (l : Lane) := congrArg (State.lane · l) (high h)
  clear high
  generalize ((s.completed g).leaveQueue rest ((s.completed g).journal.written (s.completed g).unit.host page r)).afterLeave = left
    at ran low staging lanes journal run walker unit
  have host : left.unit.host = s.unit.host := congrArg SettingsUnit.host unit
  have page_eq : page.withRecord r s.journal.journalSeq = page' := by
    cases hl : r.lane <;> simp only [OpenPage.withRecord, addLane, hl, page']
    all_goals rfl
  have why_eq : closeAfterWrite left.unit.host (page.withRecord r s.journal.journalSeq) r (s.journal.flush == .record 0) = why := by
    rw [host, page_eq]
    exact closeAfterWrite_eq _ _ _ _
  replace ran : exec .recordWriteComplete s = .next (left.closeFor page' why).settle := by
    rw [← why_eq, ← page_eq]
    exact ran
  have still (no : why = none) : page'.lingerDue = false := by
    by_contra due
    rw [Bool.not_eq_false] at due
    exact absurd no (by rw [show why = some .linger from if_pos due]; exact nofun)
  have opened' : left.journal.page = some page' := by
    rw [journal, ← page_eq]
    rfl
  obtain ⟨run', walker', staging', lane'⟩ := closeFor_blocks left page' why
  have journal' := closeFor_journal why opened' still
  rw [run, journal] at journal'
  refine ⟨_, _, ran, settle_frame _, by rw [journal']; rfl, by rw [journal']; rfl, by rw [journal']; rfl, run'.trans run,
    walker'.trans walker, by rw [journal']; rfl, by rw [journal']; rfl, fun w closes => ?_, ?_, fun h => ?_, fun h => ?_⟩
  · have asked := asks_closeFor (s := left) (page := page') closes
    rw [run, journal] at asked
    exact asked
  · rw [journal']
    have empty : page.count + 1 = 1 ↔ page.count = 0 := by omega
    by_cases no : why = none
    · have due : page.lingerDue = false := still no
      simp only [no, State.leaveQueue, Journal.written, due, Option.isSome, empty, and_true]
      rfl
    · obtain ⟨w, hw⟩ := Option.ne_none_iff_exists'.1 no
      simp only [hw, Option.isSome, if_true]
  · exact ⟨staging'.trans (staging h), fun l => (lane' l).trans (lanes h l)⟩
  · exact ⟨staging'.trans (low h).1, fun l => (lane' l).trans ((low h).2 l)⟩

/-! ## The last status write of a load (R18, R112, R155 step 5, R172) -/

theorem exec_statusWrite {s : State} {g : Grant} (granted : s.dma.granted = some g)
    (purpose : completes .statusWriteComplete g.req.purpose) : exec .statusWriteComplete s = .next s.complete.statusWritten.settle := by
  show execStatusWriteComplete s = _
  rw [execStatusWriteComplete]
  cases p : g.req.purpose
  case deviceStatusWrite | laneStatusWrite => rw [purpose_of_granted granted p]
  all_goals
    rw [p] at purpose
    exact purpose.elim

theorem statusWritten_last {s : State} (device : s.run.device = .loading) (load : s.unit.load = .status []) :
    s.statusWritten = s.enterRunning := by
  unfold State.statusWritten
  rw [device, load]

theorem statusWritten_more {s : State} (more : ¬(s.run.device = .loading ∧ s.unit.load = .status [])) : s.statusWritten = s := by
  unfold State.statusWritten
  split
  next device load => exact absurd ⟨device, load⟩ more
  next => rfl

/-- A device record in the queue, with what the flow high mark makes of the fill (R103, R105). -/
theorem stageDevice_staging (s : State) (b : RecordBody) : s.stageDevice b = { s with
    staging.queue := s.staging.queue ++ [⟨b, none, s.run.clock, s.staging.devSeq⟩]
    staging.devSeq := s.staging.devSeq + 1
    staging.hold := s.staging.hold || decide (s.unit.host.flowHigh ≤ s.staging.queue.length + 1) } := by
  unfold State.stageDevice State.testHigh
  dsimp only
  rw [List.length_append, List.length_singleton]
  split
  next high => rw [decide_eq_true high, Bool.or_true]
  next low => rw [decide_eq_false low, Bool.or_false]

/-- The baseline set of a run start (R18, R112). -/
def State.baselineSet (s : State) : List StagedRecord :=
  ⟨.runStart s.run.runCount, none, s.run.clock, s.staging.devSeq⟩ ::
    allLanes.flatMap fun l => stamped l s.run.clock (s.lane l).seq (s.lane l).baselineRecords

/-- Two tests of the fill are one of the last. -/
theorem hold_again (hold : Bool) (high n : Nat) (rs : List StagedRecord) :
    (hold || decide (high ≤ n + 1) || decide (rs ≠ [] ∧ high ≤ n + 1 + rs.length)) = (hold || decide (high ≤ n + (rs.length + 1))) := by
  rw [Bool.or_assoc, ← Bool.decide_or]
  congr 1
  rw [decide_eq_decide]
  cases rs with
  | nil => simp
  | cons r rs =>
    simp only [List.length_cons]
    refine ⟨?_, fun h => .inr ⟨nofun, by omega⟩⟩
    rintro (low | ⟨-, high⟩) <;> omega

theorem baselineRecords_eq (u : LaneUnit) : u.baselineRecords =
    if u.configured = true ∧ (u.settings.enable = true ∨ u.settings.drawer.enable = true) then
      [.keylock u.keylock.position u.keylock.position false] ++
        (if u.laneState = .active then [u.imageRecord .baseline] else []) ++
        (if u.settings.drawer.enable then [u.drawer.baseline] else [])
    else [] := by
  unfold LaneUnit.baselineRecords
  simp only [Bool.and_eq_true, Bool.or_eq_true]

theorem stageBaseline_staging (s : State) : s.stageBaseline.staging = { s.staging with
    queue := s.staging.queue ++ s.baselineSet
    devSeq := s.staging.devSeq + 1
    hold := s.staging.hold || decide (s.unit.host.flowHigh ≤ s.staging.queue.length + s.baselineSet.length) } := by
  have staging := (stageBaseline_spec s).1.staging
  rw [stageDevice_staging] at staging
  unfold State.baselineSet
  generalize (allLanes.flatMap fun l => stamped l s.run.clock (s.lane l).seq (s.lane l).baselineRecords) = rs at staging ⊢
  simp only [List.length_append, List.length_singleton, List.append_assoc, List.singleton_append, hold_again] at staging
  exact staging

/-- Settles O18: the last write enters RUNNING with the baseline set and both fetches; every other one only frees the engine. -/
theorem statusWritten : Obligations.StatusWritten := by
  unfold Obligations.StatusWritten
  intro s g granted purpose
  have ran := exec_statusWrite granted purpose
  rw [complete_completed granted] at ran
  refine ⟨fun device load => ?_, fun more => ?_⟩
  · rw [statusWritten_last (s := s.completed g) device load, enterRunning_eq] at ran
    have staging := stageBaseline_staging (s.completed g).beginRun
    obtain ⟨stages, lanes⟩ := stageBaseline_spec (s.completed g).beginRun
    rw [stageDevice_staging] at stages
    have run := stages.run
    have journal := stages.journal
    have walker := stages.walker
    clear stages
    generalize (s.completed g).beginRun.stageBaseline = base at ran staging lanes run journal walker
    have links : base.journal.linkOffset = s.journal.linkOffset ∧ base.walker.linkOffset = s.walker.linkOffset := by
      rw [journal, walker]
      exact ⟨rfl, rfl⟩
    simp only [baselineRecords_eq] at lanes
    simp only [State.baselineSet, baselineRecords_eq] at staging
    refine ⟨_, _, ran, settle_frame _, run, congrArg (fun j => { j with state := .needPage }) journal,
      congrArg (fun w => { w with
        state := .fetching, stale := none, reread := false, rehead := false, recheck := none, isReread := false }) walker,
      congrArg Staging.devSeq staging, ⟨congrArg Staging.queue staging, congrArg Staging.hold staging, lanes⟩, ?_, ?_⟩
    · rw [← links.1]
      refine asks_settle (asks_request_ne _ (by decide) ?_)
      exact asks_startFetch base
    · rw [← links.2]
      exact asks_settle (asks_walkerFetch base.startFetch.freshWalk false)
  · rw [statusWritten_more (s := s.completed g) more] at ran
    exact ⟨_, _, ran, settle_frame _, rfl⟩

end Sys2Proof.Machine
end

section
/-! PROOFS. FLUSH and JOURNAL_MARK (O36, O37). -/

namespace Sys2Proof.Machine

theorem exec_flush (s : State) : exec .flush s = s.taking .flush State.takeFlush := rfl

theorem exec_journalMark (tag : Word32) (s : State) :
    exec (.journalMark tag) s = s.taking (.journalMark tag) fun s => s.takeJournalMark tag := rfl

/-! ## FLUSH (R130, R149) -/

theorem takeFlush_waiting {s : State} {r : StagedRecord} {rest : List StagedRecord} (queue : s.staging.queue = r :: rest) :
    s.takeFlush = { s with journal.flush := .record rest.length, walker.state := .waiting, walker.stage := .waiting } := by
  unfold State.takeFlush
  rw [queue]
  rfl

theorem takeFlush_unopened {s : State} (queue : s.staging.queue = []) (unopened : s.journal.page = none) :
    s.takeFlush = s.answer (accepted 0 []) := by
  unfold State.takeFlush
  rw [queue, unopened]

theorem takeFlush_opened {s : State} {page : OpenPage} (queue : s.staging.queue = []) (opened : s.journal.page = some page) :
    s.takeFlush =
      if page.closing.isSome then { s with journal.flush := .page, walker.state := .waiting, walker.stage := .waiting }
      else if page.count = 0 then s.answer (accepted 0 [])
      else ({ s with journal.flush := .page }.beginClose page .flush).wait := by
  unfold State.takeFlush
  rw [queue, opened]
  rfl

/-- Settles O36: what the owner of the order does, by the queue and the open page. -/
theorem flushOrder : Obligations.FlushOrder := by
  unfold Obligations.FlushOrder
  intro s sl hands
  have ran := (exec_flush s).trans (taking_eq hands State.takeFlush)
  refine ⟨fun r rest queue => ?_, fun queue unopened => ?_, fun page queue opened open' empty => ?_, fun page queue opened closing => ?_,
    fun page queue opened open' records => ?_⟩
  · rw [takeFlush_waiting queue] at ran
    exact ⟨_, _, ran, settle_frame _, rfl⟩
  · exact answeredBy_of_taking (exec_flush s) hands (takeFlush_unopened queue unopened) rfl rfl
  · refine answeredBy_of_taking (exec_flush s) hands ?_ rfl rfl
    rw [takeFlush_opened queue opened, open', if_neg (by decide), if_pos empty]
  · rw [takeFlush_opened queue opened, if_pos closing] at ran
    exact ⟨_, _, ran, settle_frame _, rfl⟩
  · rw [takeFlush_opened queue opened, open', if_neg (by decide), if_neg records] at ran
    refine ⟨_, _, ran, settle_frame _, rfl, _, asks_settle ?_, headerBody_closeRequest { s with journal.flush := .page } page .flush⟩
    exact asks_beginClose_self { s with journal.flush := .page } page .flush

/-! ## JOURNAL_MARK (R111, R150) -/

theorem markEnters_iff (s : State) : s.markEnters = true ↔
    s.staging.queue.length < 96 ∧ (s.run.device = .running ∨ s.run.device = .stopping) := by
  rw [State.markEnters, Bool.and_eq_true, decide_eq_true_eq, inRun_iff]

/-- A command after whose own work on `e` the slip in hand is answered. -/
theorem answeredBy_of_answer {c : Instr} {s e : State} {sl : Slip} {a : Answer} (ran : exec c s = .next (e.answer a).settle)
    (current : e.walker.current = some sl) (clock : e.run.clock = s.run.clock) : AnsweredBy c s e sl a := by
  have asked := (asks_answer current a).2
  rw [clock] at asked
  refine ⟨_, _, ran, settle_frame _, ?_, asks_settle asked⟩
  rw [answer_eq current]
  rfl

/-- Settles O37: the MARK enters where it has its place, and else waits; MARK_ENTRY is the same for the waiting one. -/
theorem marks : Obligations.Marks := by
  unfold Obligations.Marks
  intro s sl tag place q e a
  have staged : s.stageDevice (.mark tag) = e := by
    rw [stageDevice_staging]
    simp only [e, q, List.length_append, List.length_singleton]
  refine ⟨fun hands enters => ?_, fun hands waits => ?_, fun marked current enters => ?_, fun idle => ?_⟩
  · refine answeredBy_of_taking (exec_journalMark tag s) hands ?_ rfl rfl
    rw [State.takeJournalMark, if_pos ((markEnters_iff s).2 enters), State.enterMark, staged]
    rfl
  · have ran := (exec_journalMark tag s).trans (taking_eq hands _)
    rw [State.takeJournalMark, if_neg fun h => waits ((markEnters_iff s).1 h)] at ran
    exact ⟨_, _, ran, settle_frame _, rfl⟩
  · refine answeredBy_of_answer ?_ current rfl
    show execMarkEntry s = _
    rw [execMarkEntry, marked]
    dsimp only
    rw [if_pos ((markEnters_iff s).2 enters), State.enterMark, stageDevice_staging]
    simp only [e, q, List.length_append, List.length_singleton]
    rfl
  · show execMarkEntry s = _
    rw [execMarkEntry]
    split
    next tag' marked =>
      rcases idle with none | waits
      · exact absurd none (by rw [marked]; exact nofun)
      · exact if_neg fun h => waits ((markEnters_iff s).1 h)
    next => rfl

end Sys2Proof.Machine
end

section
/-! PROOFS. The bytes of the records and of the two status structures (O52, O53). -/

namespace Sys2Proof.Machine

/-! ## Blocks of bytes -/

theorem byteAt_beyond {data : List Byte} {i : Nat} (beyond : data.length ≤ i) : byteAt data i = 0 := by
  rw [byteAt, List.getD_eq_getElem?_getD, List.getElem?_eq_none beyond]
  rfl

theorem byteAt_append_left {a b : List Byte} {i : Nat} (inside : i < a.length) : byteAt (a ++ b) i = byteAt a i :=
  List.getD_append a b 0 i inside

theorem byteAt_append_right (a b : List Byte) (i : Nat) : byteAt (a ++ b) (a.length + i) = byteAt b i := by
  rw [byteAt, List.getD_append_right a b 0 _ (Nat.le_add_right ..), Nat.add_sub_cancel_left]
  rfl

theorem length_padTo (n : Nat) (data : List Byte) : (padTo n data).length = n := by
  simp only [padTo, List.length_append, List.length_take, List.length_replicate]
  omega

theorem byteAt_padTo {n : Nat} {data : List Byte} (fits : data.length ≤ n) (i : Nat) : byteAt (padTo n data) i = byteAt data i := by
  rw [padTo, List.take_of_length_le fits]
  by_cases inside : i < data.length
  · exact byteAt_append_left inside
  · rw [byteAt_beyond (Nat.le_of_not_lt inside), byteAt, List.getD_append_right _ _ _ _ (Nat.le_of_not_lt inside)]
    simp [List.getD_eq_getElem?_getD, List.getElem?_replicate]
    split <;> rfl

theorem length_bytesOf (n v : Nat) : (bytesOf n v).length = n := by
  induction n generalizing v with
  | zero => rfl
  | succ n ih => rw [bytesOf, List.length_cons, ih]

theorem byteAt_bytesOf {n : Nat} (v : Nat) {i : Nat} (inside : i < n) : byteAt (bytesOf n v) i = BitVec.ofNat 8 (v / 256 ^ i) := by
  induction n generalizing v i with
  | zero => omega
  | succ n ih =>
    cases i with
    | zero => simp [bytesOf, byteAt]
    | succ i =>
      rw [Nat.pow_succ', ← Nat.div_div_eq_div_mul]
      exact ih _ (by omega)

theorem field1_small {data : List Byte} {i n : Nat} (b0 : byteAt data i = BitVec.ofNat 8 n) (small : n < 256) : field1 data i = n := by
  rw [field1_of_byteAt b0, Nat.mod_eq_of_lt small]

theorem flag_lt (b : Bool) : b.toNat < 256 := by cases b <;> decide

theorem two_flags_lt (a b : Bool) : a.toNat + 2 * b.toNat < 256 := by cases a <;> cases b <;> decide

/-! ## Records (R71, R186) -/

theorem laneByte_lt (l : Option Lane) : laneByte l < 256 := by
  cases l with
  | none => decide
  | some l => exact Nat.lt_trans l.isLt (by decide)

theorem kind_lt (b : RecordBody) : b.kind < 256 := by
  unfold RecordBody.kind
  split <;> decide

theorem drawerClass_lt (cause : DrawerCause) (new : Condition) : cause.cls new < 256 := by
  cases cause <;> cases new <;> decide

theorem cls_lt (b : RecordBody) : b.cls < 256 := by
  cases b
  case drawer new old cause latch ajar value => exact drawerClass_lt cause new
  all_goals exact Nat.le_of_ble_eq_true rfl

theorem laneStateCode_lt (x : LaneState) : laneStateCode x < 256 := by
  cases x <;> decide

theorem positionCode_lt (p : Position) : positionCode p < 256 := by
  cases p <;> decide

theorem conditionCode_lt (x : Condition) : x.code < 256 := by
  cases x <;> decide

theorem detail_lt (b : RecordBody) : b.detail < 256 := by
  cases b
  case keyDown k _ | keyUp k _ | keyRepeat k _ | keyBlocked k _ _ => exact Nat.lt_trans k.isLt (by decide)
  case keylock new _ _ => exact positionCode_lt new
  case label p _ _ _ | labelRefused p _ | labelDuplicate p _ => cases p <;> exact Nat.le_of_ble_eq_true rfl
  case drawer new _ _ _ _ _ => exact conditionCode_lt new
  case laneState new _ => exact laneStateCode_lt new
  all_goals exact Nat.zero_lt_succ _

theorem reason_lt (b : RecordBody) : b.reason < 256 := by
  cases b
  case keyBlocked k r n => cases r <;> exact Nat.le_of_ble_eq_true rfl
  case keyImage c _ _ _ => cases c <;> exact Nat.le_of_ble_eq_true rfl
  case keylock n o b => exact flag_lt b
  case label p m passed text => cases passed <;> exact Nat.le_of_ble_eq_true rfl
  case labelRefused p r => cases r <;> exact Nat.le_of_ble_eq_true rfl
  case drawer n o c _ _ _ => cases c <;> exact Nat.le_of_ble_eq_true rfl
  case laneState n c => cases c <;> exact Nat.le_of_ble_eq_true rfl
  all_goals exact Nat.zero_lt_succ _

theorem length_data (b : RecordBody) : b.data.length ≤ 4 := by
  cases b
  case labelRefused p r => cases r <;> exact Nat.le_of_ble_eq_true rfl
  all_goals exact Nat.le_of_ble_eq_true rfl

theorem units_eq (b : RecordBody) : b.units = 2 + (b.tail.length + 7) / 8 := by
  have no : 2 = 2 + (([] : List Byte).length + 7) / 8 := by decide
  cases b
  case keyImage c bits n k => simp only [RecordBody.units, RecordBody.tail, maskBytes, length_bytesOf]
  case label => rfl
  case labelRefused p r =>
    cases r
    case check => rfl
    all_goals exact no
  case drawer | gap => simp only [RecordBody.units, RecordBody.tail, byte1, byte2, List.length_append, length_bytesOf]
  all_goals exact no

/-- The fixed part of a record up to its data bytes. -/
def StagedRecord.head (r : StagedRecord) : List Byte :=
  byte1 r.body.kind ++ byte1 (laneByte r.lane) ++ byte1 r.body.units ++ byte1 r.body.cls ++ byte4 r.time ++ byte2 r.seq.toNat ++
    byte1 r.body.detail ++ byte1 r.body.reason

theorem length_record (r : StagedRecord) : r.bytes.length = 8 * r.body.units := length_padTo _ _

theorem byteAt_record (r : StagedRecord) (i : Nat) :
    byteAt r.bytes i = byteAt (r.head ++ (padTo 4 r.body.data ++ r.body.tail)) i := by
  have layout : r.bytes = padTo (8 * r.body.units) (r.head ++ (padTo 4 r.body.data ++ r.body.tail)) := by
    rw [← List.append_assoc]
    rfl
  have twelve : r.head.length = 12 := rfl
  have units := units_eq r.body
  rw [layout]
  refine byteAt_padTo ?_ i
  rw [List.length_append, List.length_append, length_padTo, twelve]
  omega

theorem byteAt_record_data (r : StagedRecord) {i : Nat} (four : i < 4) : byteAt r.bytes (12 + i) = byteAt r.body.data i := by
  rw [byteAt_record, show 12 + i = r.head.length + i from rfl, byteAt_append_right, byteAt_append_left (by rwa [length_padTo]), byteAt_padTo (length_data _)]

theorem byteAt_record_tail (r : StagedRecord) (i : Nat) : byteAt r.bytes (16 + i) = byteAt r.body.tail i := by
  have four := byteAt_append_right (padTo 4 r.body.data) r.body.tail i
  rw [length_padTo] at four
  rw [byteAt_record, show 16 + i = r.head.length + (4 + i) from Nat.add_assoc 12 4 i, byteAt_append_right, four]

/-- What a record holds of its kind (chapter 11.4). -/
def RecordRow (r : StagedRecord) (kind cls detail reason : Nat) (data tail : List Byte) : Prop :=
  field1 r.bytes 0 = kind ∧ field1 r.bytes 3 = cls ∧ field1 r.bytes 10 = detail ∧ field1 r.bytes 11 = reason ∧
    (∀ i, i < 4 → byteAt r.bytes (12 + i) = byteAt data i) ∧ (∀ i, byteAt r.bytes (16 + i) = byteAt tail i) ∧
    r.body.units = 2 + (tail.length + 7) / 8

theorem recordRow (r : StagedRecord) : RecordRow r r.body.kind r.body.cls r.body.detail r.body.reason r.body.data r.body.tail :=
  ⟨field1_small (byteAt_record r 0) (kind_lt _), field1_small (byteAt_record r 3) (cls_lt _),
    field1_small (byteAt_record r 10) (detail_lt _), field1_small (byteAt_record r 11) (reason_lt _),
    fun _ four => byteAt_record_data r four, byteAt_record_tail r, units_eq _⟩

/-- A word shifted down and cut to a byte is a byte of its value. -/
theorem byte_of_shift {w : Nat} (v : BitVec w) (k : Nat) : (v >>> k).setWidth 8 = BitVec.ofNat 8 (v.toNat / 2 ^ k) := by
  apply BitVec.eq_of_toNat_eq
  rw [BitVec.toNat_setWidth, BitVec.toNat_ushiftRight, BitVec.toNat_ofNat, Nat.shiftRight_eq_div_pow]

theorem byte4_shift (w : Word32) :
    byte4 w = [w.setWidth 8, (w >>> 8).setWidth 8, (w >>> 16).setWidth 8, (w >>> 24).setWidth 8] := by
  have first : w.setWidth 8 = BitVec.ofNat 8 w.toNat := by simp
  rw [byte4_eq, first, byte_of_shift, byte_of_shift, byte_of_shift]
  simp only [Nat.div_div_eq_div_mul, Nat.reducePow, Nat.reduceMul]

theorem byte2_shift (n : BitVec 16) : byte2 n.toNat = [n.setWidth 8, (n >>> 8).setWidth 8] := by
  have first : n.setWidth 8 = BitVec.ofNat 8 n.toNat := by simp
  rw [byte2_eq, first, byte_of_shift]
  rfl

theorem maskBytes_range {w : Nat} (n : Nat) (v : BitVec w) :
    maskBytes n v = (List.range n).map fun i => (v >>> (8 * i)).setWidth 8 := by
  refine List.ext_getElem (by simp [maskBytes, length_bytesOf]) fun i left right => ?_
  rw [maskBytes, length_bytesOf] at left
  have byte := byteAt_bytesOf v.toNat left
  rw [byteAt, List.getD_eq_getElem _ _ (by rwa [length_bytesOf])] at byte
  rw [List.getElem_map, List.getElem_range, byte_of_shift, Nat.pow_mul]
  exact byte

theorem positionCode_eq (p : Position) : positionCode p = (match p with | .lock => 0 | .register => 1 | .manager => 2 | .service => 3) := by
  cases p <;> rfl

theorem portCode_eq (p : Port) : portCode p = (match p with | .a => 0 | .b => 1) := by
  cases p <;> rfl

theorem conditionCode_eq (x : Condition) : x.code = (match x with
    | .closed => 0 | .kicking => 1 | .isOpen => 2 | .ajar => 3 | .forced => 4 | .jammed => 5 | .absent => 6) := by
  cases x <;> rfl

theorem laneStateCode_eq (x : LaneState) : laneStateCode x = (match x with | .disabled => 0 | .active => 1 | .doze => 2 | .off => 3) := by
  cases x <;> rfl

/-- Settles O53: the fixed part by its bytes, the rest by the row of each kind. -/
theorem recordBytes : Obligations.RecordBytes := by
  unfold Obligations.RecordBytes
  intro r d pos port cond lane row n8
  have own : row r.body.kind r.body.cls r.body.detail r.body.reason r.body.data r.body.tail := recordRow r
  refine ⟨length_record r, byteAt_record r 2, ?_, ?_, ?_, ?_⟩
  · rw [field1_small (byteAt_record r 1) (laneByte_lt r.lane)]
    cases r.lane <;> rfl
  · exact field4_of_byteAt (byteAt_record r 4) (byteAt_record r 5) (byteAt_record r 6) (byteAt_record r 7)
  · rw [field2_of_byteAt (byteAt_record r 8) (byteAt_record r 9)]
    exact Nat.mod_eq_of_lt r.seq.isLt
  · clear_value row
    cases body : r.body <;> rw [body] at own
    case keyDown | keyUp | keyRepeat => exact own
    case keyBlocked why _ => cases why <;> exact own
    case keyImage why bits _ _ =>
      rw [RecordBody.tail, maskBytes_range] at own
      cases why <;> exact own
    case keylock new old bad =>
      rw [RecordBody.detail, RecordBody.data, positionCode_eq, positionCode_eq] at own
      exact own
    case label p mark passed text =>
      have first : BitVec.ofNat 8 (mark.getD 0).toNat = mark.getD 0 := BitVec.ofNat_toNat 8 _
      rw [RecordBody.detail, RecordBody.data, portCode_eq, byte1_eq (mark.getD 0).toNat, first] at own
      exact own
    case labelRefused p why =>
      rw [RecordBody.detail, portCode_eq] at own
      cases why <;> exact own
    case labelDuplicate p e =>
      rw [RecordBody.detail, RecordBody.data, portCode_eq, byte4_shift] at own
      exact own
    case drawer new old why latch ajar v =>
      obtain ⟨kind, cls, detail, reason, data, tail, units⟩ := recordRow r
      rw [body] at kind cls detail reason data tail units
      refine ⟨field4_of_byteAt (data 0 (by decide)) (data 1 (by decide)) (data 2 (by decide)) (data 3 (by decide)), ?_, kind,
        detail.trans (conditionCode_eq new), ?_, ?_, ?_, fun i beyond => ?_, rfl⟩
      · rw [cls]
        cases why <;> rfl
      · rw [reason]
        cases why <;> rfl
      · exact (field1_small (tail 0) (conditionCode_lt old)).trans (conditionCode_eq old)
      · exact field1_small (tail 1) (two_flags_lt latch ajar)
      · obtain ⟨j, rfl⟩ := Nat.exists_eq_add_of_le beyond
        rw [show 18 + j = 16 + (2 + j) by omega, tail]
        exact byteAt_beyond (Nat.le_add_right 2 j)
    case laneState new why =>
      rw [RecordBody.detail, laneStateCode_eq] at own
      cases why
      case wake w => cases w <;> exact own
      all_goals exact own
    case gap => exact own
    case mark tag =>
      obtain ⟨kind, cls, detail, reason, data, -, -⟩ := recordRow r
      rw [body] at kind cls detail reason data
      refine ⟨field4_of_byteAt (data 0 (by decide)) (data 1 (by decide)) (data 2 (by decide)) (data 3 (by decide)), kind, cls, ?_, rfl⟩
      rw [field2, detail, reason]
      rfl
    case runStart n =>
      rw [RecordBody.data, byte2_shift] at own
      exact own

/-! ## The device status section (R163, R184) -/

theorem deviceCode_eq (x : DeviceState) : x.code = (match x with
    | .resetIdle => 0 | .loading => 1 | .running => 2 | .stopping => 3 | .stopped => 4 | .faulted => 5) := by
  cases x <;> rfl

theorem faultCode_eq (x : FaultReason) : x.code = (match x with | .none => 0 | .anchorBad => 1 | .linkAbort => 2) := by
  cases x <;> rfl

theorem walkerCode_eq (x : WalkerState) : x.code = (match x with
    | .idle => 0 | .fetching => 1 | .working => 2 | .waiting => 3 | .parked => 4 | .broken => 5 | .halted => 6) := by
  cases x <;> rfl

theorem stallCode_eq (x : StallReason) : x.code = (match x with
    | .none => 0 | .stalePage => 1 | .staleSlip => 2 | .badPageLink => 3 | .badSlipLink => 4) := by
  cases x <;> rfl

theorem walkerCode_lt (x : WalkerState) : x.code < 256 := by
  cases x <;> decide

theorem stallCode_lt (x : StallReason) : x.code < 256 := by
  cases x <;> decide

/-- The device status section up to its last field. -/
def State.deviceFields (s : State) : List Byte :=
  byte1 s.run.device.code ++ byte1 s.run.fault.code ++ byte2 s.run.runCount.toNat ++ flagByte s.unit.policyLock ++
    byte1 s.walker.state.code ++
    byte1 (s.journal.episode.toNat + 2 * s.staging.hold.toNat + 4 * s.unit.host.clamped.toNat) ++
    byte1 s.staging.queue.length ++ byte4 s.journal.journalSeq ++ byte4 s.journal.pageSeq ++
    byte4 ((s.journal.page.map OpenPage.offset).getD 0) ++ byte4 (s.journal.lastClosed.getD 0) ++ byte4 s.walker.cursor ++
    byte4 s.unit.stall.offset ++ byte1 s.unit.stall.reason.code ++ [s.unit.host.selector] ++ s.unit.host.echo ++
    byte4 s.run.clock

theorem length_deviceFields (s : State) : s.deviceFields.length = 0x30 := by
  simp only [State.deviceFields, HostSettings.echo, List.length_append, byte1, byte2, byte4, flagByte, maskBytes, length_bytesOf,
    List.length_singleton]

theorem byteAt_deviceStatus (s : State) (i : Nat) : byteAt s.deviceStatus i = byteAt s.deviceFields i :=
  byteAt_padTo (by
    rw [← State.deviceFields, length_deviceFields]
    decide) i

/-- Bit by bit, three flags in a byte. -/
theorem threeFlags_bits : ∀ a b c : Bool, ∀ i, i < 8 → (BitVec.ofNat 8 (a.toNat + 2 * b.toNat + 4 * c.toNat)).getLsbD i =
    if i = 0 then a else if i = 1 then b else if i = 2 then c else false := by
  decide

/-- A bit of a set of flags, in the byte that holds it. -/
theorem bit_of_byte {w : Nat} (v : BitVec w) (k : Nat) : (BitVec.ofNat 8 (v.toNat / 256 ^ (k / 8))).getLsbD (k % 8) = v.getLsbD k := by
  have low : k % 8 < 8 := Nat.mod_lt k (by decide)
  rw [BitVec.getLsbD_ofNat, decide_eq_true low, Bool.true_and, show 256 ^ (k / 8) = 2 ^ (8 * (k / 8)) from (Nat.pow_mul 2 8 _).symm,
    Nat.testBit_div_two_pow, Nat.mod_add_div]
  rfl

/-! ## A lane status record (R162, R184) -/

theorem formatCode_eq (x : CharFormat) : x.code = (match x with | .f8n1 => 0 | .f7e1 => 1 | .f7o1 => 2) := by
  cases x <;> rfl

theorem formatCode_lt (x : CharFormat) : x.code < 256 := by
  cases x <;> decide

/-- The lane status record ahead of its echo. -/
def LaneUnit.statusHead (u : LaneUnit) (clock : Word32) : List Byte :=
  byte1 u.configured.toNat ++ byte1 (laneStateCode u.laneState) ++ byte1 (positionCode u.keylock.position) ++
    byte1 u.drawer.cond.code ++ byte1 (u.drawer.latch.toNat + 2 * u.drawer.ajarFault.toNat) ++
    byte1 u.drawer.history.length ++ maskBytes 1 u.noted ++ byte1 (u.clamped.toNat + 2 * u.held.toNat) ++ [0, 0, 0, 0] ++
    byte4 clock

theorem length_echo (c : LaneSettings) : c.echo.length = 84 := by
  simp only [LaneSettings.echo, LaneSettings.echoKeys, PortSettings.echo, DrawerSettings.echo, List.length_append, length_padTo, byte1,
    byte2, maskBytes, length_bytesOf]

theorem byteAt_status (u : LaneUnit) (clock : Word32) (i : Nat) :
    byteAt (u.status clock) i = byteAt (u.statusHead clock ++ if u.configured then u.settings.echo else []) i := by
  refine byteAt_padTo ?_ i
  rw [List.length_append]
  split
  · rw [length_echo]
    exact Nat.le_of_ble_eq_true rfl
  · exact Nat.le_of_ble_eq_true rfl

theorem byteAt_statusHead (u : LaneUnit) (clock : Word32) {i : Nat} (head : i < 16) :
    byteAt (u.status clock) i = byteAt (u.statusHead clock) i := by
  rw [byteAt_status, byteAt_append_left head]

theorem byteAt_statusEcho (u : LaneUnit) (clock : Word32) (i : Nat) :
    byteAt (u.status clock) (0x10 + i) = byteAt (if u.configured then u.settings.echo else []) i := by
  rw [byteAt_status]
  exact byteAt_append_right (u.statusHead clock) _ i

/-- What a block holds at `o`. -/
def HoldsAt (d : List Byte) (o : Nat) (part : List Byte) : Prop := ∀ i, i < part.length → byteAt d (o + i) = byteAt part i

theorem HoldsAt.left {d : List Byte} {o : Nat} {a b : List Byte} (h : HoldsAt d o (a ++ b)) : HoldsAt d o a := fun i inside => by
  rw [h i (by rw [List.length_append]; omega), byteAt_append_left inside]

theorem HoldsAt.right {d : List Byte} {o : Nat} {a b : List Byte} (h : HoldsAt d o (a ++ b)) : HoldsAt d (o + a.length) b := fun i inside => by
  rw [Nat.add_assoc, h (a.length + i) (by rw [List.length_append]; omega), byteAt_append_right]

theorem HoldsAt.padded {d : List Byte} {o n : Nat} {part : List Byte} (h : HoldsAt d o (padTo n part)) (fits : part.length ≤ n) (i : Nat)
    (inside : i < n) : byteAt d (o + i) = byteAt part i := by
  rw [h i (by rwa [length_padTo]), byteAt_padTo fits]

/-- The echo of a configured lane, part by part. -/
theorem holds_echo {u : LaneUnit} (clock : Word32) (configured : u.configured = true) :
    let d := u.status clock
    let c := u.settings
    HoldsAt d 0x10 c.echoKeys ∧ HoldsAt d 0x28 (maskBytes 16 c.repeatMap) ∧ HoldsAt d 0x38 c.portA.echo ∧
      HoldsAt d 0x48 c.portB.echo ∧ HoldsAt d 0x58 c.drawer.echo := by
  intro d c
  have echo : HoldsAt d 0x10 c.echo := fun i _ => by rw [byteAt_statusEcho, if_pos configured]
  have keys : c.echoKeys.length = 24 := length_padTo _ _
  have map : (maskBytes 16 c.repeatMap).length = 16 := length_bytesOf _ _
  have port (p : PortSettings) : p.echo.length = 16 := length_padTo _ _
  have parts := And.intro echo.left.left.left.right (And.intro echo.left.left.right (And.intro echo.left.right echo.right))
  simp only [List.length_append, keys, map, port] at parts
  exact ⟨echo.left.left.left.left, parts⟩

theorem portSettings_bytes {d : List Byte} {o : Nat} {p : PortSettings} (echo : HoldsAt d o p.echo) :
    field1 d o = p.enable.toNat ∧ byteAt d (o + 1) = BitVec.ofNat 8 p.rate ∧
    field1 d (o + 2) = (match p.format with | .f8n1 => 0 | .f7e1 => 1 | .f7o1 => 2) ∧ byteAt d (o + 3) = p.terminator ∧
    field1 d (o + 4) = p.markMode.toNat ∧ byteAt d (o + 5) = BitVec.ofNat 8 p.minLength ∧
    byteAt d (o + 6) = BitVec.ofNat 8 p.gapMs ∧ field1 d (o + 7) = p.check.toNat ∧ field1 d (o + 8) = p.hostConfirm.toNat ∧
    field1 d (o + 9) = p.reportDuplicates.toNat ∧ field2 d (o + 10) = p.toneMs % 65536 ∧ field4 d (o + 12) = 0 := by
  have byte := echo.padded (Nat.le_of_ble_eq_true rfl)
  simp only [byte1_eq, byte2_eq, flagByte, List.cons_append, List.nil_append] at byte
  have flag (i : Nat) (b : Bool) (at_ : byteAt d i = BitVec.ofNat 8 b.toNat) := field1_small at_ (flag_lt b)
  refine ⟨flag _ _ (byte 0 (by decide)), byte 1 (by decide), ?_, byte 3 (by decide), flag _ _ (byte 4 (by decide)), byte 5 (by decide),
    byte 6 (by decide), flag _ _ (byte 7 (by decide)), flag _ _ (byte 8 (by decide)), flag _ _ (byte 9 (by decide)),
    field2_of_byteAt (byte 10 (by decide)) (byte 11 (by decide)),
    field4_of_byteAt (byte 12 (by decide)) (byte 13 (by decide)) (byte 14 (by decide)) (byte 15 (by decide))⟩
  exact (field1_small (byte 2 (by decide)) (formatCode_lt _)).trans (formatCode_eq _)

/-- Settles O52: each part of the two structures byte by byte, the rest by their lengths. -/
theorem statusBytes : Obligations.StatusBytes := by
  unfold Obligations.StatusBytes
  refine ⟨fun s => ?_, fun u clock => ?_⟩
  · intro d h device reason walker stall
    have byte := byteAt_deviceStatus s
    have beyond (i : Nat) (past : 0x30 ≤ i) : byteAt d i = 0 := by
      rw [byte, byteAt_beyond (by rwa [length_deviceFields])]
    simp only [State.deviceFields, HostSettings.echo, byte1_eq, byte2_eq, byte4_eq, flagByte, maskBytes_one, List.cons_append,
      List.nil_append] at byte
    have word {i : Nat} {w : Word32} := field4_of_byteAt (data := d) (i := i) (w := w)
    refine ⟨length_padTo _ _, ?_, ?_, ?_, field1_small (byte 4) (flag_lt _), ?_, fun i eight => ?_, byte 7,
      word (byte 8) (byte 9) (byte 10) (byte 11), word (byte 12) (byte 13) (byte 14) (byte 15), ?_,
      word (byte 20) (byte 21) (byte 22) (byte 23), word (byte 24) (byte 25) (byte 26) (byte 27),
      word (byte 28) (byte 29) (byte 30) (byte 31), ?_, byte 33, byte 34, byte 35, byte 36, byte 37, byte 38, byte 39,
      field2_of_byteAt (byte 40) (byte 41), byte 42, (byte 43).trans (BitVec.ofNat_toNat 8 _),
      word (byte 44) (byte 45) (byte 46) (byte 47), beyond⟩
    · exact (field1_small (byte 0) (Nat.lt_trans (DeviceState.code_lt _) (by decide))).trans (deviceCode_eq _)
    · exact (field1_small (byte 1) (Nat.lt_trans (FaultReason.code_lt _) (by decide))).trans (faultCode_eq _)
    · rw [field2_of_byteAt (byte 2) (byte 3)]
      exact Nat.mod_eq_of_lt s.run.runCount.isLt
    · exact (field1_small (byte 5) (walkerCode_lt _)).trans (walkerCode_eq _)
    · rw [byte 6]
      exact threeFlags_bits _ _ _ i eight
    · refine (word (byte 16) (byte 17) (byte 18) (byte 19)).trans ?_
      cases s.journal.page <;> rfl
    · exact (field1_small (byte 32) (stallCode_lt _)).trans (stallCode_eq _)
  · intro d c state pos cond port
    have byte (i : Nat) (head : i < 16) := byteAt_statusHead u clock head
    simp only [LaneUnit.statusHead, byte1_eq, byte4_eq, maskBytes_one, List.cons_append, List.nil_append] at byte
    refine ⟨length_padTo _ _, field1_small (byte 0 (by decide)) (flag_lt _), ?_, ?_, ?_,
      field1_small (byte 4 (by decide)) (two_flags_lt _ _), byte 5 (by decide), (byte 6 (by decide)).trans (BitVec.ofNat_toNat 8 _),
      field1_small (byte 7 (by decide)) (two_flags_lt _ _),
      field4_of_byteAt (byte 8 (by decide)) (byte 9 (by decide)) (byte 10 (by decide)) (byte 11 (by decide)),
      field4_of_byteAt (byte 12 (by decide)) (byte 13 (by decide)) (byte 14 (by decide)) (byte 15 (by decide)),
      fun i past => ?_, fun unconfigured i past => ?_, fun configured => ?_⟩
    · exact (field1_small (byte 1 (by decide)) (laneStateCode_lt _)).trans (laneStateCode_eq _)
    · exact (field1_small (byte 2 (by decide)) (positionCode_lt _)).trans (positionCode_eq _)
    · exact (field1_small (byte 3 (by decide)) (conditionCode_lt _)).trans (conditionCode_eq _)
    · obtain ⟨j, rfl⟩ := Nat.exists_eq_add_of_le past
      rw [show 0x64 + j = 0x10 + (84 + j) by omega, byteAt_statusEcho]
      refine byteAt_beyond ?_
      split
      · rw [length_echo]
        exact Nat.le_add_right 84 j
      · exact Nat.zero_le _
    · obtain ⟨j, rfl⟩ := Nat.exists_eq_add_of_le past
      rw [byteAt_statusEcho, unconfigured]
      rfl
    · obtain ⟨keys, map, portA, portB, drawer⟩ := holds_echo clock configured
      have key := keys.padded (by
        simp only [byte1, byte2, flagByte, maskBytes, List.length_append, length_bytesOf, List.length_singleton]
        decide)
      simp only [byte1_eq, byte2_eq, flagByte, maskBytes_one, List.cons_append, List.nil_append] at key
      simp only [HoldsAt, DrawerSettings.echo, byte1_eq, byte2_eq, List.cons_append, List.nil_append] at drawer
      replace drawer (i : Nat) (inside : i < 12) := drawer i inside
      have flag (i : Nat) (b : Bool) (at_ : byteAt d i = BitVec.ofNat 8 b.toNat) := field1_small at_ (flag_lt b)
      refine ⟨flag _ _ (key 0 (by decide)), flag _ _ (key 1 (by decide)), key 2 (by decide),
        (key 3 (by decide)).trans (BitVec.ofNat_toNat 8 _), field2_of_byteAt (key 4 (by decide)) (key 5 (by decide)),
        key 6 (by decide), key 7 (by decide), key 8 (by decide), key 9 (by decide), key 10 (by decide), flag _ _ (key 11 (by decide)),
        field2_of_byteAt (key 12 (by decide)) (key 13 (by decide)), field2_of_byteAt (key 14 (by decide)) (key 15 (by decide)),
        field2_of_byteAt (key 16 (by decide)) (key 17 (by decide)), field2_of_byteAt (key 18 (by decide)) (key 19 (by decide)),
        (key 20 (by decide)).trans (BitVec.ofNat_toNat 8 _), key 21 (by decide), key 22 (by decide), key 23 (by decide), ?_,
        portSettings_bytes portA, portSettings_bytes portB, ?_⟩
      · intro k
        have octet : k.val / 8 < 16 := by omega
        rw [map (k.val / 8) (by rwa [maskBytes, length_bytesOf]), maskBytes, byteAt_bytesOf _ octet]
        exact bit_of_byte c.repeatMap k.val
      · exact ⟨field2_of_byteAt (drawer 0 (by decide)) (drawer 1 (by decide)), field2_of_byteAt (drawer 2 (by decide)) (drawer 3 (by decide)),
          field2_of_byteAt (drawer 4 (by decide)) (drawer 5 (by decide)), field2_of_byteAt (drawer 6 (by decide)) (drawer 7 (by decide)),
          drawer 8 (by decide), drawer 9 (by decide), drawer 10 (by decide), drawer 11 (by decide)⟩

end Sys2Proof.Machine
end

section
/-! PROOFS. The operands that a load takes from the host part and from a lane settings record (O15, O16). -/

namespace Sys2Proof.Machine

/-! ## One field (R156) -/

theorem clampTo_eq {lo hi : Nat} (n : Nat) (range : lo ≤ hi) : clampTo lo hi n = max lo (min hi n) := by
  unfold clampTo
  split
  · omega
  · split <;> omega

theorem clampTo_zero (hi n : Nat) : clampTo 0 hi n = min hi n := by
  rw [clampTo_eq n (Nat.zero_le hi), Nat.zero_max]

theorem load_hit (clamp : Nat → Nat) (n : Nat) : (load clamp n).hit = false ↔ clamp n = n := bne_eq_false_iff_eq

theorem load_flag (n : Nat) : (load (clampTo 0 1) n).flag = true ↔ n ≠ 0 := by
  simp only [Loaded.flag, load, clampTo_zero, bne_iff_ne]
  omega

theorem load_flag_hit (n : Nat) : (load (clampTo 0 1) n).hit = false ↔ n ≤ 1 := by
  rw [load_hit, clampTo_zero]
  omega

theorem loadDefault_zero {sel : Byte} (written : sel = 0) (dflt : Nat) (clamp : Nat → Nat) (n : Nat) :
    loadDefault sel dflt clamp n = load clamp n := if_pos written

theorem loadDefault_set {sel : Byte} (set : sel ≠ 0) (dflt : Nat) (clamp : Nat → Nat) (n : Nat) :
    loadDefault sel dflt clamp n = ⟨dflt, false⟩ := if_neg set

/-- A field with a default has been replaced just where it is taken as written and is not what was written. -/
theorem loadDefault_hit (sel : Byte) (dflt : Nat) (clamp : Nat → Nat) (n : Nat) :
    (loadDefault sel dflt clamp n).hit = false ↔ (sel = 0 → (loadDefault sel dflt clamp n).value = n) := by
  by_cases written : sel = 0
  · rw [loadDefault_zero written, load_hit]
    exact ⟨fun kept _ => kept, fun kept => kept written⟩
  · rw [loadDefault_set written]
    exact ⟨fun _ zero => absurd zero written, fun _ => rfl⟩

/-! ## Sets of flags (R157, R158) -/

theorem testBit_foldr_bytes (bs : List Byte) (k : Nat) :
    (bs.foldr (fun (b : Byte) acc => b.toNat + 256 * acc) 0).testBit k = (byteAt bs (k / 8)).getLsbD (k % 8) := by
  induction bs generalizing k with
  | nil => simp [byteAt]
  | cons b bs ih =>
    rw [List.foldr_cons, Nat.add_comm, show 256 = 2 ^ 8 from rfl, Nat.testBit_two_pow_mul_add _ b.isLt]
    split
    next low => rw [Nat.div_eq_of_lt low, Nat.mod_eq_of_lt low]; rfl
    next high =>
      obtain ⟨j, rfl⟩ := Nat.exists_eq_add_of_le' (Nat.le_of_not_lt high)
      rw [Nat.add_sub_cancel, Nat.add_div_right j (by decide), Nat.add_mod_right]
      exact ih j

theorem maskField_bit {w n i : Nat} (data : List Byte) (o : Nat) (wide : i < w) (inside : i / 8 < n) :
    (maskField w data o n).getLsbD i = (byteAt data (o + i / 8)).getLsbD (i % 8) := by
  rw [maskField, BitVec.getLsbD_ofNat, decide_eq_true wide, Bool.true_and, testBit_foldr_bytes]
  congr 1
  simp [byteAt, List.getD_eq_getElem?_getD, inside]

theorem maskField_byte {w i : Nat} (data : List Byte) (o : Nat) (wide : i < w) (eight : i < 8) :
    (maskField w data o 1).getLsbD i = (byteAt data o).getLsbD i := by
  have byte : i / 8 = 0 := by omega
  rw [maskField_bit data o wide (by omega), byte, Nat.mod_eq_of_lt eight]
  rfl

/-! ## The host part (R116, R157) -/

/-- Settles O15: each field by what loading makes of it, the clamped flag by which fields were replaced. -/
theorem hostPartFields : Obligations.HostPartFields := by
  unfold Obligations.HostPartFields
  intro data h near
  have clamped : h.clamped = false ↔ h.lanesInUse = field1 data 2 ∧ h.pageCode = field1 data 3 ∧ h.notice = field1 data 4 ∧
      (h.selector = 0 → h.urgent = field1 data 5) ∧ (h.selector = 0 → h.flowHigh = field1 data 6) ∧
      (h.selector = 0 → h.flowLow = field1 data 7) ∧ (h.selector = 0 → h.lingerMs = field2 data 8) := by
    have recheck : (loadDefault (byteAt data 1) 10 id (field1 data 0x0A)).hit = false :=
      (loadDefault_hit _ _ _ _).2 fun zero => by rw [loadDefault_zero zero]; rfl
    simp only [h, loadHost, List.any_cons, List.any_nil, Bool.or_false, Bool.or_eq_false_iff, load_hit, loadDefault_hit, recheck]
    rfl
  refine ⟨loadHost_inRange data, rfl, rfl, fun i seven => maskField_byte data 0x0B seven (by omega), clampTo_eq _ (by decide),
    clampTo_zero _ _, clampTo_eq _ (by decide), fun set => ?_, fun zero => ?_, fun zero => ?_, fun set => ?_⟩
  · simp only [h, loadHost, loadDefault_set (sel := byteAt data 1) set]
    trivial
  · simp only [h, loadHost, loadDefault_zero (sel := byteAt data 1) zero]
    exact ⟨clampTo_eq _ (by decide), clampTo_eq _ (by decide), clampTo_zero _ _, clampTo_zero _ _, rfl⟩
  · simp only [clamped, zero, true_implies]
  · simp only [clamped, set, false_implies, and_true]

/-! ## A port block (R41) -/

theorem formatOf_load (n : Nat) : formatOf (load (fun n => if 2 < n then 0 else n) n).value =
    if n = 1 then .f7e1 else if n = 2 then .f7o1 else .f8n1 := by
  obtain small | rfl | rfl | rfl : 2 < n ∨ n = 0 ∨ n = 1 ∨ n = 2 := by omega
  · rw [if_neg (by omega), if_neg (by omega), load, if_pos small]
    rfl
  all_goals rfl

theorem format_hit (n : Nat) : (load (fun n => if 2 < n then 0 else n) n).hit = false ↔ n ≤ 2 := by
  rw [load_hit]
  split <;> omega

theorem loadPort_fields (data : List Byte) (sel : Byte) (o : Nat) :
    let p := (loadPort data sel o).1
    let f1 := field1 data
    (p.enable = true ↔ f1 o ≠ 0) ∧ p.rate = min 7 (f1 (o + 1)) ∧
    p.format = (if f1 (o + 2) = 1 then .f7e1 else if f1 (o + 2) = 2 then .f7o1 else .f8n1) ∧
    (p.markMode = true ↔ f1 (o + 4) ≠ 0) ∧ (p.check = true ↔ f1 (o + 7) ≠ 0) ∧ (p.hostConfirm = true ↔ f1 (o + 8) ≠ 0) ∧
    (p.reportDuplicates = true ↔ f1 (o + 9) ≠ 0) ∧
    (sel = 0 → p.terminator = byteAt data (o + 3) ∧ p.minLength = max 1 (min 48 (f1 (o + 5))) ∧ p.gapMs = max 2 (f1 (o + 6)) ∧
      p.toneMs = max 20 (min 500 (field2 data (o + 10)))) := by
  refine ⟨load_flag _, clampTo_zero _ _, formatOf_load _, load_flag _, load_flag _, load_flag _, load_flag _, fun zero => ?_⟩
  simp only [loadPort, loadDefault_zero zero]
  refine ⟨BitVec.ofNat_toNat 8 _, clampTo_eq _ (by decide), (clampTo_eq _ (by decide)).trans ?_, clampTo_eq _ (by decide)⟩
  rw [Nat.min_eq_right (Nat.le_of_lt_succ (field1_lt data _))]

theorem loadPort_set (data : List Byte) {sel : Byte} (set : sel ≠ 0) (o : Nat) :
    let p := (loadPort data sel o).1
    p.terminator = 0x0D ∧ p.minLength = 4 ∧ p.gapMs = 30 ∧ p.toneMs = 80 := by
  simp only [loadPort, loadDefault_set set]
  trivial

theorem loadPort_clamped (data : List Byte) (sel : Byte) (o : Nat) :
    let p := (loadPort data sel o).1
    let f1 := field1 data
    (loadPort data sel o).2 = false ↔
      (f1 o ≤ 1 ∧ f1 (o + 2) ≤ 2 ∧ f1 (o + 4) ≤ 1 ∧ f1 (o + 7) ≤ 1 ∧ f1 (o + 8) ≤ 1 ∧ f1 (o + 9) ≤ 1) ∧ p.rate = f1 (o + 1) ∧
      (sel = 0 → p.minLength = f1 (o + 5) ∧ p.gapMs = f1 (o + 6) ∧ p.toneMs = field2 data (o + 10)) := by
  have terminator (n : Nat) : (loadDefault sel 0x0D id n).hit = false :=
    (loadDefault_hit _ _ _ _).2 fun zero => by rw [loadDefault_zero zero]; rfl
  simp only [loadPort, List.any_cons, List.any_nil, Bool.or_false, Bool.or_eq_false_iff, load_flag_hit, format_hit, loadDefault_hit,
    terminator, load_hit (clampTo 0 7), true_and]
  refine ⟨fun ⟨enable, rate, format, mode, short, gap, check, confirm, report, tone⟩ => ?_,
    fun ⟨⟨enable, format, mode, check, confirm, report⟩, rate, fields⟩ => ?_⟩
  · exact ⟨⟨enable, format, mode, check, confirm, report⟩, rate, fun zero => ⟨short zero, gap zero, tone zero⟩⟩
  · exact ⟨enable, rate, format, mode, fun zero => (fields zero).1, fun zero => (fields zero).2.1, check, confirm, report,
      fun zero => (fields zero).2.2⟩

/-! ## The drawer fields (R76) -/

theorem loadDrawer_fields (data : List Byte) {sel : Byte} (zero : sel = 0) :
    let d := (loadDrawer data sel).1
    let f1 := field1 data
    let f2 := field2 data
    d.kickMs = max 20 (min 250 (f2 0x48)) ∧ d.confirmMs = max 100 (min 3000 (f2 0x4A)) ∧ d.alertS = max 5 (min 600 (f2 0x4C)) ∧
    d.faultS = max d.alertS (max 5 (min 3600 (f2 0x4E))) ∧ d.settleMs = max 4 (min 64 (f1 0x50)) ∧ d.presenceS = min 60 (f1 0x51) ∧
    d.lockoutCount = (if f1 0x52 = 0 then 0 else max 2 (min 8 (f1 0x52))) ∧ d.lockoutMin = max 1 (min 120 (f1 0x53)) := by
  simp only [loadDrawer, loadDefault_zero zero]
  refine ⟨clampTo_eq _ (by decide), clampTo_eq _ (by decide), clampTo_eq _ (by decide), ?_, clampTo_eq _ (by decide), clampTo_zero _ _, ?_,
    clampTo_eq _ (by decide)⟩
  · exact congrArg (max _) (clampTo_eq _ (by decide))
  · rw [← clampTo_eq _ (by decide)]
    rfl

theorem loadDrawer_set (data : List Byte) {sel : Byte} (set : sel ≠ 0) : (loadDrawer data sel).1 =
    { enable := (loadDrawer data sel).1.enable, kickMs := 60, confirmMs := 800, alertS := 60, faultS := 180, settleMs := 16, presenceS := 5
      lockoutCount := 3, lockoutMin := 15 } := by
  simp only [loadDrawer, loadDefault_set set]

theorem loadDrawer_clamped (data : List Byte) (sel : Byte) :
    let d := (loadDrawer data sel).1
    let f1 := field1 data
    let f2 := field2 data
    (loadDrawer data sel).2 = false ↔ f1 1 ≤ 1 ∧ (sel = 0 →
      d.kickMs = f2 0x48 ∧ d.confirmMs = f2 0x4A ∧ d.alertS = f2 0x4C ∧ d.faultS = f2 0x4E ∧ d.settleMs = f1 0x50 ∧
      d.presenceS = f1 0x51 ∧ d.lockoutCount = f1 0x52 ∧ d.lockoutMin = f1 0x53) := by
  simp only [loadDrawer, List.any_cons, List.any_nil, Bool.or_false, Bool.or_eq_false_iff, load_flag_hit, loadDefault_hit, imp_and]

/-! ## The lane record (R41, R60, R76, R158, R161) -/

/-- The drawer fields that a load delivers. -/
def loadedDrawer (data : List Byte) : Option DrawerSettings → DrawerSettings × Bool
  | some d => (d, false)
  | none => loadDrawer data (byteAt data 2)

theorem loadLane_drawer (data : List Byte) (held : Option DrawerSettings) : (loadLane data held).1.drawer = (loadedDrawer data held).1 := by
  cases held <;> rfl

theorem loadLane_clamped (data : List Byte) (held : Option DrawerSettings) :
    let c := (loadLane data held).1
    let f1 := field1 data
    let f2 := field2 data
    (loadLane data held).2 = false ↔
      (f1 0 ≤ 1 ∧ f1 0x0B ≤ 1 ∧ c.idleMin = f2 4 ∧ c.drive = f1 6 ∧ c.sense = f1 7 ∧ c.dupWindowMs = f2 0x12 ∧
        (c.selector = 0 → c.settleMs = f2 0x0C ∧ c.pass = f1 8 ∧ c.debounce = f1 9 ∧ c.rollover = f1 0x0A ∧
          c.typematicMs = f2 0x0E ∧ c.repeatMs = f2 0x10)) ∧
      (loadPort data c.selector 0x28).2 = false ∧ (loadPort data c.selector 0x38).2 = false ∧ (loadedDrawer data held).2 = false := by
  have drawer : (loadedDrawer data held).2 = (match held with | some d => (d, false) | none => loadDrawer data (byteAt data 2)).2 := by
    cases held <;> rfl
  rw [drawer]
  simp only [loadLane, List.any_cons, List.any_nil, Bool.or_false, Bool.or_eq_false_iff, load_flag_hit,
    loadDefault_hit, load_hit (clampTo 0 255), load_hit (clampTo 1 8), load_hit (clampTo 1 16), load_hit (clampTo 0 2000), imp_and]
  refine ⟨fun ⟨⟨⟨⟨enable, idle, drive, sense, pass, debounce, rollover, isolated, settle, typematic, interval, window⟩, a⟩, b⟩, d⟩ => ?_,
    fun ⟨⟨enable, isolated, idle, drive, sense, window, settle, pass, debounce, rollover, typematic, interval⟩, a, b, d⟩ => ?_⟩
  · exact ⟨⟨enable, isolated, idle, drive, sense, window, settle, pass, debounce, rollover, typematic, interval⟩, a, b, d⟩
  · exact ⟨⟨⟨⟨enable, idle, drive, sense, pass, debounce, rollover, isolated, settle, typematic, interval, window⟩, a⟩, b⟩, d⟩

/-- Settles O16: the fields of the lane, of its two port blocks and of the drawer, each by what loading makes of it. -/
theorem laneRecordFields : Obligations.LaneRecordFields := by
  unfold Obligations.LaneRecordFields
  intro data held stored c near f1 f2
  have drawer : c.drawer = (loadedDrawer data held).1 := loadLane_drawer data held
  refine ⟨loadLane_inRange data held stored, rfl, load_flag _, fun i five => maskField_byte data 3 five (by omega),
    fun i eight => maskField_byte data 0x14 eight eight, fun k => maskField_bit data 0x18 k.isLt (by omega), load_flag _,
    clampTo_zero _ _, clampTo_eq _ (by decide), clampTo_eq _ (by decide), clampTo_zero _ _, fun set => ?_, fun set free => ?_,
    fun zero => ?_, fun p o which => ?_, fun free => ?_, fun d holds => ?_, ?_⟩
  · have a := loadPort_set data (sel := byteAt data 2) set 0x28
    have b := loadPort_set data (sel := byteAt data 2) set 0x38
    obtain ⟨a3, a5, a6, a10⟩ := a
    obtain ⟨b3, b5, b6, b10⟩ := b
    simp only [c, loadLane, loadDefault_set (sel := byteAt data 2) set, true_and]
    exact ⟨a3, a5, a6, a10, b3, b5, b6, b10⟩
  · subst free
    exact loadDrawer_set data set
  · simp only [c, loadLane, loadDefault_zero (sel := byteAt data 2) zero]
    exact ⟨clampTo_eq _ (by decide), clampTo_eq _ (by decide), clampTo_eq _ (by decide), clampTo_eq _ (by decide),
      clampTo_eq _ (by decide), clampTo_eq _ (by decide)⟩
  · obtain ⟨rfl, rfl⟩ | ⟨rfl, rfl⟩ := which
    · exact loadPort_fields data (byteAt data 2) 0x28
    · exact loadPort_fields data (byteAt data 2) 0x38
  · subst free
    exact ⟨load_flag _, fun zero => loadDrawer_fields data zero⟩
  · subst holds
    exact drawer
  · intro flags kept
    have fields : (loadedDrawer data held).2 = false ↔ (held = none → f1 1 ≤ 1 ∧ (c.selector = 0 →
        c.drawer.kickMs = f2 0x48 ∧ c.drawer.confirmMs = f2 0x4A ∧ c.drawer.alertS = f2 0x4C ∧ c.drawer.faultS = f2 0x4E ∧
        c.drawer.settleMs = f1 0x50 ∧ c.drawer.presenceS = f1 0x51 ∧ c.drawer.lockoutCount = f1 0x52 ∧
        c.drawer.lockoutMin = f1 0x53)) := by
      cases held with
      | none => exact (loadDrawer_clamped data c.selector).trans ⟨fun h _ => h, fun h => h rfl⟩
      | some d => exact ⟨fun _ => nofun, fun _ => rfl⟩
    have a : (loadPort data c.selector 0x28).2 = false ↔ kept c.portA 0x28 := loadPort_clamped data c.selector 0x28
    have b : (loadPort data c.selector 0x38).2 = false ↔ kept c.portB 0x38 := loadPort_clamped data c.selector 0x38
    refine (loadLane_clamped data held).trans ?_
    rw [a, b, fields]
    simp only [and_assoc]
    rfl

end Sys2Proof.Machine
end

section
/-! PROOFS. The order walker's fetch and the writes of a slip (O27, O28). -/

namespace Sys2Proof.Machine

/-! ## The commands -/

theorem exec_orderLink {s : State} {g : Grant} (link : Word32) (granted : s.dma.granted = some g)
    (purpose : g.req.purpose = .orderLinkRead) : exec (.orderLinkReadComplete link) s = .next (s.complete.orderLink link).settle := by
  show execOrderLinkReadComplete link s = _
  rw [execOrderLinkReadComplete, purpose_of_granted granted purpose]

theorem exec_slipRead {s : State} {g : Grant} {o : Word32} (data : List Byte) (granted : s.dma.granted = some g)
    (purpose : g.req.purpose = .slipRead o) : exec (.slipReadComplete data) s = .next (s.complete.slipRead o data).settle := by
  show execSlipReadComplete data s = _
  rw [execSlipReadComplete, purpose_of_granted granted purpose]

theorem validSlip_iff (h : HostSettings) {link : Word32} (nonzero : link ≠ 0) :
    validSlip h link = true ↔ link.toNat % 64 = 0 ∧ link.toNat + 64 ≤ h.areaLength := by
  rw [validSlip, Bool.and_eq_true, Bool.and_eq_true, bne_iff_ne, beq_iff_eq, decide_eq_true_eq]
  exact ⟨fun ⟨⟨_, a⟩, b⟩ => ⟨a, b⟩, fun ⟨a, b⟩ => ⟨⟨nonzero, a⟩, b⟩⟩

/-! ## A fetch that ends without a slip (R138 to R141, R152) -/

/-- A fetch has ended PARKED, with the stall and the causes as the end of the fetch leaves them. -/
def State.parkedOn (s : State) (stale : Option Word32) (stall : Stall) (causes : BitVec 7) : State :=
  { s with
    run.causes := causes
    unit := { s.unit with stall := stall, devRewrite := true }
    walker := { s.walker with
      state := .parked
      stale := stale
      reread := false
      rehead := false
      recheck := if s.walker.isReread then s.walker.recheck else s.unit.host.recheckTimer } }

/-- A fetch follows at once where one has been asked for meanwhile (R139, R142). -/
def State.goAgain (m : State) (again : Bool) : State := if again then m.walkerFetch true else m

theorem fetchParked_zero {s : State} (goes : s.run.device ≠ .stopping) : s.fetchParked none =
    (s.parkedOn none (if s.unit.stall.owner = .walker then .none else s.unit.stall) s.run.causes).goAgain
      (s.walker.reread || s.walker.rehead) := by
  obtain ⟨rewrite, eq⟩ := clearStall_eq s .walker
  unfold State.fetchParked
  rw [if_neg goes]
  dsimp only
  rw [eq]
  rfl

theorem fetchParked_stale {s : State} (o : Word32) (goes : s.run.device ≠ .stopping) : s.fetchParked (some o) =
    (s.parkedOn (some o) (if s.walker.stale = some o then s.unit.stall else { offset := o, reason := .staleSlip, owner := .walker })
      (if s.walker.stale = some o then s.run.causes else s.run.causes ||| Cause.stall.bit)).goAgain
      (s.walker.reread || s.walker.rehead) := by
  unfold State.fetchParked
  rw [if_neg goes]
  by_cases known : s.walker.stale = some o
  · simp only [if_pos known]
    rfl
  · simp only [if_neg known]
    rfl

theorem goAgain_spec {m n : State} {again : Bool} (went : n = m.goAgain again) (parked : m.walker.state = .parked) :
    n.run = m.run ∧ n.unit = m.unit ∧
    n.walker = { m.walker with
      state := if again then .fetching else .parked, isReread := again || m.walker.isReread } ∧
    (again = true → n.settle.asks .walker (readRequest .orderLinkRead m.walker.linkOffset 4)) := by
  subst went
  cases again with
  | false =>
    refine ⟨rfl, rfl, ?_, nofun⟩
    show m.walker = _
    rw [Bool.false_or, if_neg (by decide), ← parked]
  | true => exact ⟨rfl, rfl, rfl, fun _ => asks_settle (asks_walkerFetch m true)⟩

/-- A fetch has read an invalid link (R141). -/
def State.walkerBrokenOn (s : State) (link : Word32) : State :=
  { s with
    run.causes := s.run.causes ||| Cause.chain.bit
    unit := { s.unit with stall := { offset := link, reason := .badSlipLink, owner := .walker }, devRewrite := true }
    walker := { s.walker with state := .broken, stale := none, reread := false, rehead := false, recheck := none } }

theorem walkerBroken_eq (s : State) (link : Word32) : s.walkerBroken link =
    if s.run.device = .stopping then (s.walkerBrokenOn link).haltWalker
    else if s.walker.rehead then (s.walkerBrokenOn link).walkerFetch false else s.walkerBrokenOn link := rfl

/-! ## A slip that is taken (R138, R143) -/

theorem byteAt_padTo_inside {n i : Nat} (data : List Byte) (inside : i < n) : byteAt (padTo n data) i = byteAt data i := by
  rcases Nat.le_total data.length n with fits | long
  · exact byteAt_padTo fits i
  · rw [padTo, byteAt_append_left (by rw [List.length_take]; omega)]
    simp [byteAt, List.getD_eq_getElem?_getD, inside]

theorem byteAt_drop (data : List Byte) (o i : Nat) : byteAt (data.drop o) i = byteAt data (o + i) := by
  simp only [byteAt, List.getD_eq_getElem?_getD, List.getElem?_drop]

theorem slipOf_params (o : Word32) (data : List Byte) : (slipOf o data).params.length = 16 ∧
    ∀ i, i < 16 → byteAt (slipOf o data).params i = byteAt data (0x0C + i) :=
  ⟨length_padTo _ _, fun i inside => (byteAt_padTo_inside _ inside).trans (byteAt_drop data 0x0C i)⟩

/-- The current slip is in hand, its TAKEN write still to be asked for. -/
def State.takingSlip (s : State) (sl : Slip) (rewrite : Bool) : State :=
  { s with
    unit := { s.unit with stall := if s.unit.stall.owner = .walker then .none else s.unit.stall, devRewrite := rewrite }
    walker := { s.walker with
      state := .working, current := some sl, stage := .taking, stale := none, reread := false, rehead := false, recheck := none } }

theorem takeSlip_eq (s : State) (sl : Slip) : ∃ rewrite, s.takeSlip sl =
    (s.takingSlip sl rewrite).request .walker (writeRequest .takenWrite sl.offset [2]) := by
  obtain ⟨rewrite, eq⟩ := clearStall_eq s .walker
  unfold State.takeSlip
  rw [eq]
  exact ⟨_, rfl⟩

/-- Settles O27: each case of the two reads by what it leaves, from the state in which the read has completed. -/
theorem orderFetch : Obligations.OrderFetch := by
  unfold Obligations.OrderFetch
  refine ⟨fun s g link granted purpose => ?_, fun s g o data granted purpose => ?_⟩
  · have ran := exec_orderLink link granted purpose
    rw [complete_completed granted] at ran
    refine ⟨fun zero goes => ?_, fun zero stops => ?_, fun nonzero valid => ?_, fun nonzero bad => ?_⟩
    · rw [State.orderLink, if_pos zero] at ran
      obtain ⟨run, unit, walker, asks⟩ := goAgain_spec (fetchParked_zero (s := s.completed g) goes) rfl
      exact ⟨_, _, ran, settle_frame _, run, unit, walker, asks⟩
    · obtain ⟨rewrite, eq⟩ := clearStall_eq (s.completed g) .walker
      rw [State.orderLink, if_pos zero, State.fetchParked, if_pos (by exact stops), if_neg (by decide), eq] at ran
      exact ⟨_, _, ran, settle_frame _, rfl, rfl, rfl⟩
    · rw [State.orderLink, if_neg nonzero, if_pos ((validSlip_iff _ nonzero).2 (by exact valid))] at ran
      exact ⟨_, _, ran, settle_frame _, rfl, asks_settle (asks_request _ _ _)⟩
    · rw [State.orderLink, if_neg nonzero, if_neg (mt (validSlip_iff _ nonzero).1 (by exact bad)), walkerBroken_eq] at ran
      by_cases stops : s.run.device = .stopping
      · rw [if_pos (by exact stops)] at ran
        refine ⟨_, _, ran, settle_frame _, ?_, rfl, ?_⟩
        · rw [decide_eq_true stops, Bool.or_true]
          rfl
        · rw [if_pos stops]
          rfl
      · rw [if_neg (by exact stops)] at ran
        simp only [if_neg stops, decide_eq_false stops, Bool.or_false]
        cases again : s.walker.rehead
        · rw [show (s.completed g).walker.rehead = false from again, if_neg (by decide)] at ran
          exact ⟨_, _, ran, settle_frame _, rfl, rfl, rfl⟩
        · rw [show (s.completed g).walker.rehead = true from again, if_pos rfl] at ran
          refine ⟨_, _, ran, settle_frame _, rfl, rfl, rfl, ?_⟩
          exact asks_settle (asks_walkerFetch ((s.completed g).walkerBrokenOn link) false)
  · have ran := exec_slipRead data granted purpose
    rw [complete_completed granted, State.slipRead] at ran
    refine ⟨fun posted goes => ?_, fun other goes => ?_, fun stops => ?_⟩
    · obtain ⟨rewrite, eq⟩ := takeSlip_eq (s.completed g) (slipOf o data)
      rw [if_pos posted, if_neg (by exact goes), eq] at ran
      obtain ⟨length, params⟩ := slipOf_params o data
      exact ⟨_, _, slipOf o data, ran, settle_frame _, rfl, rfl, rfl, rfl, rfl, rfl, rfl, length, params, rfl,
        asks_settle (asks_request _ _ _)⟩
    · rw [if_neg other] at ran
      obtain ⟨run, unit, walker, asks⟩ := goAgain_spec (fetchParked_stale (s := s.completed g) o goes) rfl
      refine ⟨_, _, ran, settle_frame _, ?_⟩
      generalize (s.completed g).fetchParked (some o) = m at *
      rw [run, unit, walker]
      refine ⟨rfl, rfl, rfl, rfl, ?_, rfl, ?_⟩
      · by_cases known : s.walker.stale = some o
        · rw [if_pos known]
          exact ⟨congrArg (fun c => { s.run with causes := c }) (if_pos known), if_pos known⟩
        · rw [if_neg known]
          exact ⟨congrArg (fun c => { s.run with causes := c }) (if_neg known), if_neg known⟩
      · by_cases asked : s.walker.reread = true ∨ s.walker.rehead = true
        · have again := Bool.or_eq_true_iff.2 asked
          rw [if_pos asked]
          exact ⟨if_pos again, asks again⟩
        · rw [if_neg asked]
          exact if_neg fun again => asked (Bool.or_eq_true_iff.1 again)
    · by_cases posted : byteAt data 0 = 1
      · rw [if_pos posted, if_pos (by exact stops)] at ran
        exact ⟨_, _, ran, settle_frame _, rfl, rfl, rfl⟩
      · rw [if_neg posted, State.fetchParked, if_pos (by exact stops), if_pos Option.isSome_some] at ran
        exact ⟨_, _, ran, settle_frame _, rfl, rfl, rfl⟩

/-! ## The slip-level checks (R144) -/

theorem exec_taken {s : State} {g : Grant} (granted : s.dma.granted = some g) (purpose : g.req.purpose = .takenWrite) :
    exec .takenWriteComplete s = .next s.complete.takenWritten.settle := by
  show execTakenWriteComplete s = _
  rw [execTakenWriteComplete, purpose_of_granted granted purpose]

theorem takenWritten_refused {s : State} {sl : Slip} {a : Answer} (current : s.walker.current = some sl)
    (refused : checkSlip s.unit.host.lanesInUse sl = .error a) : s.takenWritten = s.answer a := by
  unfold State.takenWritten
  rw [current]
  dsimp only
  rw [refused]

theorem takenWritten_passed {s : State} {sl : Slip} {o : Order} (current : s.walker.current = some sl)
    (passed : checkSlip s.unit.host.lanesInUse sl = .ok o) : s.takenWritten = { s with walker.stage := .handed o } := by
  unfold State.takenWritten
  rw [current]
  dsimp only
  rw [passed]

theorem taken_refused {s : State} {g : Grant} {sl : Slip} {a : Answer} (granted : s.dma.granted = some g)
    (purpose : g.req.purpose = .takenWrite) (current : s.walker.current = some sl)
    (refused : checkSlip s.unit.host.lanesInUse sl = .error a) :
    ∃ e, e = { s with hostMem := e.hostMem } ∧ AnsweredBy .takenWriteComplete s e sl a := by
  have ran := exec_taken granted purpose
  rw [complete_completed granted, takenWritten_refused (s := s.completed g) current refused] at ran
  have asks := asks_settle (asks_answer (s := s.completed g) current a).2
  have answered := answer_eq (s := s.completed g) current a
  generalize (s.completed g).answer a = m at *
  exact ⟨{ s with hostMem := (s.completed g).hostMem }, rfl, m, _, ran, settle_frame m, by rw [answered]; rfl, asks⟩

theorem taken_passed {s : State} {g : Grant} {sl : Slip} {o : Order} (granted : s.dma.granted = some g)
    (purpose : g.req.purpose = .takenWrite) (current : s.walker.current = some sl)
    (passed : checkSlip s.unit.host.lanesInUse sl = .ok o) :
    ∃ m t, exec .takenWriteComplete s = .next t ∧ SettleFrame m t ∧
      m = { s with hostMem := m.hostMem, dma.granted := none, walker.stage := .handed o } := by
  have ran := exec_taken granted purpose
  rw [complete_completed granted, takenWritten_passed (s := s.completed g) current passed] at ran
  exact ⟨_, _, ran, settle_frame _, rfl⟩

theorem checkSlip_kind {n : Nat} {sl : Slip} (bad : sl.kind.toNat = 0 ∨ 12 < sl.kind.toNat) :
    checkSlip n sl = .error (refusal .badKind sl.kind.toNat) := if_pos bad

theorem checkSlip_lane {n : Nat} {sl : Slip} (named : 1 ≤ sl.kind.toNat ∧ sl.kind.toNat ≤ 9) (beyond : n ≤ sl.lane.toNat) :
    checkSlip n sl = .error (refusal .badLane sl.lane.toNat) := by
  rw [checkSlip, if_neg (by omega), if_pos ⟨by omega, beyond⟩]

theorem ofNat_lane {n : Nat} {l : Lane} (lane : l.val = n) : Fin.ofNat 8 n = l := by
  subst lane
  exact Fin.ofNat_val_eq_self l

/-- The target that a LANE_STATE slip names (R144). -/
def targetOrder (l : Lane) : Nat → Except Answer Order
  | 1 => .ok (.laneState l .active)
  | 2 => .ok (.laneState l .doze)
  | 3 => .ok (.laneState l .off)
  | _ => .error (refusal .badParam 0)

theorem targetOrder_other {l : Lane} {n : Nat} (other : n = 0 ∨ 3 < n) : targetOrder l n = .error (refusal .badParam 0) := by
  unfold targetOrder
  split
  case h_4 => rfl
  all_goals omega

/-- What becomes of a slip by its kind and parameters, once it names a lane in use or none (R144). -/
def Slip.judge (sl : Slip) (kind : Nat) (l : Lane) : Except Answer Order :=
  let p0 := field1 sl.params 0
  let p1 := field1 sl.params 1
  match kind with
  | 1 => .ok (.drawerKick l)
  | 2 => .ok (.drawerLockout l)
  | 3 => .ok (.drawerRelease l)
  | 4 => if 1 < p0 then .error (refusal .badParam 0) else if 1 < p1 then .error (refusal .badParam 1)
    else .ok (.scannerSet l (portOf p0) (p1 == 1))
  | 5 => if 1 < p0 then .error (refusal .badParam 0) else if 1 < p1 then .error (refusal .badParam 1)
    else .ok (.scanConfirm l (portOf p0) (p1 == 1))
  | 6 => .ok (.keyImageRead l)
  | 7 => .ok (.laneReload l)
  | 8 => targetOrder l p0
  | 9 => if 1 < p0 then .error (refusal .badParam 0) else .ok (.countersRead l (p0 == 1))
  | 10 => .ok .flush
  | 11 => .ok .policyLock
  | _ => .ok (.journalMark sl.tag)

theorem checkSlip_judge {n k : Nat} {sl : Slip} (kind : sl.kind.toNat = k) (known : 1 ≤ k ∧ k ≤ 12)
    (inUse : 10 ≤ k ∨ sl.lane.toNat < n) : checkSlip n sl = sl.judge k (Fin.ofNat 8 sl.lane.toNat) := by
  rw [checkSlip, if_neg (by omega), if_neg (by omega), kind]
  rfl

/-! ## The body, and the end of a slip (R143, R152, R185) -/

theorem exec_slipBody {s : State} {g : Grant} (granted : s.dma.granted = some g) (purpose : g.req.purpose = .slipBodyWrite) :
    exec .slipBodyWriteComplete s = .next s.complete.slipBodyWritten.settle := by
  show execSlipBodyWriteComplete s = _
  rw [execSlipBodyWriteComplete, purpose_of_granted granted purpose]

theorem exec_slipState {s : State} {g : Grant} (granted : s.dma.granted = some g) (purpose : g.req.purpose = .slipStateWrite) :
    exec .slipStateWriteComplete s = .next s.complete.slipFinished.settle := by
  show execSlipStateWriteComplete s = _
  rw [execSlipStateWriteComplete, purpose_of_granted granted purpose]

theorem slipBodyWritten_eq {s : State} {sl : Slip} {a : Answer} (current : s.walker.current = some sl)
    (stage : s.walker.stage = .body a) : s.slipBodyWritten = { s with walker.stage := .finish }.request .walker
      (writeRequest .slipStateWrite sl.offset [if a.outcome = SlipOutcome.ok then 3 else 4]) := by
  unfold State.slipBodyWritten
  rw [current, stage]

/-- The slip in hand is the last finished one. -/
def State.finished (s : State) (sl : Slip) : State :=
  { s with
    run.causes := if sl.flags.getLsbD 0 then s.run.causes ||| Cause.order.bit else s.run.causes
    unit.devRewrite := true
    walker := { s.walker with fromAnchor := false, lastFinished := some sl.offset, current := none, stage := .none } }

theorem slipFinished_eq {s : State} {sl : Slip} (current : s.walker.current = some sl) :
    s.slipFinished = if s.run.device = .stopping then (s.finished sl).haltWalker else (s.finished sl).walkerFetch false := by
  unfold State.slipFinished State.finished Slip.notifies
  rw [current]
  dsimp only
  cases sl.flags.getLsbD 0 <;> rfl

theorem outcomeCode_lt (o : SlipOutcome) : o.code < 256 := by
  cases o <;> decide

theorem byteAt_body (a : Answer) (finish : Word32) {i : Nat} (inside : i < 20) :
    byteAt (a.body finish) (8 + i) = if i < a.result.length then byteAt a.result i else 0 := by
  have tail : byteAt (a.body finish) (8 + i) = byteAt (padTo 20 a.result) i :=
    byteAt_append_right (byte1 a.outcome.code ++ [0] ++ byte2 a.detail.toNat ++ byte4 finish) _ i
  rw [tail, byteAt_padTo_inside _ inside]
  split
  next => rfl
  next beyond => exact byteAt_beyond (Nat.not_lt.1 beyond)

/-- Settles O28: the checks by kind, the three writes by what each leaves, the bytes of the body by its layout. -/
theorem slipWrites : Obligations.SlipWrites := by
  unfold Obligations.SlipWrites
  refine ⟨fun s g sl granted purpose current => ?_, fun s g sl granted current => ?_, fun a finish => ?_, fun o n r => ⟨rfl, rfl⟩,
    fun n w v => ?_, by decide⟩
  · intro k p0 p1 refused passed
    have no {o : SlipOutcome} {n : Nat} (error : checkSlip s.unit.host.lanesInUse sl = .error (refusal o n)) : refused o n :=
      taken_refused granted purpose current error
    have yes {o : Order} (ok : checkSlip s.unit.host.lanesInUse sl = .ok o) : passed o := taken_passed granted purpose current ok
    clear_value refused passed
    refine ⟨fun bad => no (checkSlip_kind bad), fun low high beyond => no (checkSlip_lane ⟨low, high⟩ beyond), fun l lane inUse => ?_,
      fun kind => yes (checkSlip_judge kind (by decide) (.inl (by decide))),
      fun kind => yes (checkSlip_judge kind (by decide) (.inl (by decide))),
      fun kind => yes (checkSlip_judge kind (by decide) (.inl (by decide)))⟩
    have judged {m : Nat} (kind : k = m) (known : 1 ≤ m ∧ m ≤ 12) : checkSlip s.unit.host.lanesInUse sl = sl.judge m l := by
      rw [checkSlip_judge kind known (.inr (by omega)), ofNat_lane lane]
    have param {m : Nat} {r : Except Answer Order} (kind : k = m) (known : 1 ≤ m ∧ m ≤ 12) (is : sl.judge m l = r) :
        checkSlip s.unit.host.lanesInUse sl = r := (judged kind known).trans is
    have low {i : Nat} {a b : Except Answer Order} (h : field1 sl.params i ≤ 1) : (if 1 < field1 sl.params i then a else b) = b :=
      if_neg (Nat.not_lt.2 h)
    refine ⟨fun kind => yes (judged kind (by decide)), fun kind => yes (judged kind (by decide)), fun kind => yes (judged kind (by decide)),
      fun kind high => no ?_, fun kind low0 high => no ?_, fun kind low0 low1 => yes (param kind (by decide) ((low low0).trans (low low1))),
      fun kind low0 low1 => yes (param kind (by decide) ((low low0).trans (low low1))), fun kind => yes (judged kind (by decide)),
      fun kind => yes (judged kind (by decide)),
      fun kind => ⟨fun active => yes (param kind (by decide) (congrArg (targetOrder l) active)),
        fun doze => yes (param kind (by decide) (congrArg (targetOrder l) doze)),
        fun off => yes (param kind (by decide) (congrArg (targetOrder l) off)),
        fun other => no (param kind (by decide) (targetOrder_other other))⟩,
      fun kind low0 => yes (param kind (by decide) (low low0)), fun kind high => no (param kind (by decide) (if_pos high))⟩
    · rcases kind with kind | kind
      · exact param kind (by decide) (if_pos high)
      · exact param kind (by decide) (if_pos high)
    · rcases kind with kind | kind
      · exact param kind (by decide) ((low low0).trans (if_pos high))
      · exact param kind (by decide) ((low low0).trans (if_pos high))
  · refine ⟨fun a purpose stage => ?_, fun purpose => ?_⟩
    · have ran := exec_slipBody granted purpose
      rw [complete_completed granted, slipBodyWritten_eq (s := s.completed g) current stage] at ran
      exact ⟨_, _, ran, settle_frame _, rfl, asks_settle (asks_request _ _ _)⟩
    · have ran := exec_slipState granted purpose
      rw [complete_completed granted, slipFinished_eq (s := s.completed g) current] at ran
      by_cases stops : s.run.device = .stopping
      · rw [if_pos (by exact stops)] at ran
        simp only [if_pos stops, decide_eq_true stops, Bool.or_true]
        exact ⟨_, _, ran, settle_frame _, rfl, rfl, rfl⟩
      · rw [if_neg (by exact stops)] at ran
        simp only [if_neg stops, decide_eq_false stops, Bool.or_false]
        refine ⟨_, _, ran, settle_frame _, rfl, rfl, rfl, ?_⟩
        exact asks_settle (asks_walkerFetch ((s.completed g).finished sl) false)
  · refine ⟨?_, ?_, rfl, ?_, field4_of_byteAt rfl rfl rfl rfl, fun i inside => byteAt_body a finish inside⟩
    · simp only [Answer.body, List.length_append, length_padTo, byte1, byte2, byte4, length_bytesOf, List.length_singleton]
    · refine (field1_small rfl (outcomeCode_lt a.outcome)).trans ?_
      cases a.outcome <;> rfl
    · exact (field2_of_byteAt rfl rfl).trans (Nat.mod_eq_of_lt a.detail.isLt)
  · refine ⟨rfl, rfl, field4_of_byteAt rfl rfl rfl rfl, length_bytesOf _ _, fun i inside => ?_⟩
    rw [maskBytes, byteAt_bytesOf _ (by omega), bit_of_byte]

end Sys2Proof.Machine
end

section
/-! PROOFS. The timers of a port, the changes of lane state and the keylock reader (O46, O35, O38). -/

namespace Sys2Proof.Machine

/-! ## The timers of a port (R43, R48, R49, R55) -/

theorem modPort_same {s : State} {l : Lane} {p : Port} {f g : ScanPort → ScanPort} (same : f ((s.lane l).port p) = g ((s.lane l).port p)) :
    s.modPort l p f = s.modPort l p g :=
  congrArg (s.setLane l) (modPort_congr (s.lane l) p same)

theorem execGap_due {s : State} {l : Lane} {p : Port} (due : ((s.lane l).port p).gap = some 0) : exec (.gapTimerExpiry l p) s =
    match ((s.lane l).port p).frame with
    | .assembling => .next (s.fragment l p).settle
    | .discarding => .next (s.modPort l p ScanPort.toWaiting)
    | .waiting => .next (s.modPort l p (fun q => { q with gap := none })) := by
  show execGapTimerExpiry l p s = _
  exact if_pos ((isDue_iff _).2 due)

theorem execTone_due {s : State} {l : Lane} {p : Port} {y : Tone} (tone : ((s.lane l).port p).tone = some y) (due : y.left = 0) :
    exec (.toneStepExpiry l p) s = .next (s.modPort l p ScanPort.toneStep) := by
  show execToneStepExpiry l p s = _
  rw [execToneStepExpiry, tone]
  exact if_pos due

/-- What the end of a frame in assembly by its gap timer leaves of the books of its lane. -/
theorem booked_fragment (s : State) (l : Lane) (p : Port) :
    Booked ((s.lane l).modPort p ScanPort.toWaiting) ((s.fragment l p).lane l) := by
  unfold State.fragment
  have told := (booked_offer s l l
    (.labelRefused p (.fragment ((s.lane l).port p).text.length ((s.lane l).port p).damaged ((s.lane l).port p).tooLong))).trans
    (booked_count _ l l .labelsRefused)
  rw [State.modPort, lane_modLane_same]
  exact told.modPort p _ _ (congrArg ScanPort.toWaiting (port_booked told p))

theorem Offers.fragment (l : Lane) (s : State) (p : Port) : Offers l s (s.fragment l p)
    [.labelRefused p (.fragment ((s.lane l).port p).text.length ((s.lane l).port p).damaged ((s.lane l).port p).tooLong)] :=
  ((Offers.offer l s _).trans (Offers.count l l _ .labelsRefused)).trans Offers.modPort

/-- A count is not undone by what keeps the counter. -/
theorem Counted.after {s t v : State} {l : Lane} {c : Counter} (counted : Counted s t l c) (kept : KeepsCounter c l t v) :
    Counted s v l c := Eq.trans kept counted

theorem counted_fragment (s : State) (l : Lane) (p : Port) : Counted s (s.fragment l p) l .labelsRefused := by
  have kept := KeepsCounter.offer (d := .labelsRefused) (by decide) l s
    (.labelRefused p (.fragment ((s.lane l).port p).text.length ((s.lane l).port p).damaged ((s.lane l).port p).tooLong))
  have counted := counted_count kept (by rw [(booked_offer s l l _).1])
  have port := KeepsCounter.modPort .labelsRefused l ((s.offer l
    (.labelRefused p (.fragment ((s.lane l).port p).text.length ((s.lane l).port p).damaged ((s.lane l).port p).tooLong))).count l
      .labelsRefused) p ScanPort.toWaiting
  exact counted.after port

theorem toneStep_last {q : ScanPort} {y : Tone} (tone : q.tone = some y) (last : y.bad = false ∨ 4 ≤ y.step) :
    q.toneStep = { q with toneOn := false, tone := none } := by
  rw [ScanPort.toneStep, tone]
  refine if_neg ?_
  rw [Bool.and_eq_true, decide_eq_true_eq]
  rintro ⟨bad, more⟩
  rcases last with good | done
  · exact absurd bad (by rw [good]; decide)
  · omega

theorem toneStep_more {q : ScanPort} {y : Tone} (tone : q.tone = some y) (bad : y.bad = true) (more : y.step < 4) : q.toneStep =
    { q with toneOn := decide (y.step % 2 = 1), tone := some { y with step := y.step + 1, left := y.period } } := by
  have goes : (y.bad && decide (y.step < 4)) = true := by rw [bad, decide_eq_true more]; rfl
  have even : ((y.step + 1) % 2 == 0) = decide (y.step % 2 = 1) := by
    rw [Bool.eq_iff_iff, beq_iff_eq, decide_eq_true_eq]
    omega
  rw [ScanPort.toneStep, tone]
  dsimp only
  rw [if_pos goes, even]

/-- Settles O46: each timer by the frame, or the step, in which it finds the port. -/
theorem portTimers : Obligations.PortTimers := by
  unfold Obligations.PortTimers
  intro s l p q
  refine ⟨fun due frame => ?_, fun due frame => ?_, fun due frame => ?_, fun idle => ?_, fun y tone due last => ?_,
    fun y tone due bad more => ?_, fun idle => ?_, rfl⟩
  · have ran := execGap_due (p := p) due
    rw [show ((s.lane l).port p).frame = .assembling from frame] at ran
    have booked := booked_fragment s l p
    refine ⟨_, _, ran, settle_frame _, (LaneStep.fragment l s p).toLaneFrame, ?_, counted_fragment s l p, ?_, fun room => ?_⟩
    · rw [port_booked booked, port_modPort, if_pos rfl]
      rfl
    · rw [booked.1]
      cases p <;> rfl
    · exact (Offers.fragment l s p).makes (room.room.mono (Nat.le_of_ble_eq_true rfl))
  · have ran := execGap_due (p := p) due
    rw [show ((s.lane l).port p).frame = .discarding from frame] at ran
    exact ran
  · have ran := execGap_due (p := p) due
    rw [show ((s.lane l).port p).frame = .waiting from frame] at ran
    exact ran
  · show execGapTimerExpiry l p s = _
    exact if_neg fun due => idle ((isDue_iff _).1 due)
  · rw [execTone_due tone due]
    exact congrArg Host.Outcome.next (modPort_same (toneStep_last tone last))
  · rw [execTone_due tone due]
    exact congrArg Host.Outcome.next (modPort_same (toneStep_more tone bad more))
  · show execToneStepExpiry l p s = _
    unfold execToneStepExpiry
    split
    next y tone => exact if_neg (idle y tone)
    next => rfl

/-! ## Changes of lane state (R2 to R5, R8 to R10) -/

theorem exec_laneState (l : Lane) (y : Target) (s : State) :
    exec (.laneState l y) s = s.taking (.laneState l y) fun s => s.takeLaneState l y := rfl

theorem changeRecords_length_le (u : LaneUnit) (new : LaneState) (cause : StateCause) : (u.changeRecords new cause).length ≤ 3 := by
  have cuts : (u.cutPorts new).length ≤ 2 := List.length_filter_le _ _
  rw [LaneUnit.changeRecords, List.length_cons, List.length_map]
  omega

theorem changeLane_makes {s : State} {l : Lane} (new : LaneState) (cause : StateCause) (capture : Bool) (room : s.roomy l) :
    Produces s (s.changeLane l new cause capture) l ((s.lane l).changeRecords new cause) :=
  (Offers.changeLane l s new cause capture).makes
    (room.room.mono (Nat.le_trans (changeRecords_length_le _ new cause) (by decide)))

theorem changeLane_kb (s : State) (l : Lane) (new : LaneState) (cause : StateCause) (capture : Bool) :
    ((s.changeLane l new cause capture).lane l).kb =
      if capture then { Keyboard.entered .scanning (s.lane l).settings.pass with capture := some (s.lane l).settings.debounce }
      else (s.lane l).kbIn new := by
  rw [(booked_changeLane s l new cause capture).1]
  exact changed_kb (s.lane l) new capture

theorem takeLaneState_disabled {s : State} {l : Lane} (y : Target) (disabled : (s.lane l).laneState = .disabled) :
    s.takeLaneState l y = s.answer (refusal .laneOff 0) := if_pos disabled

theorem takeLaneState_same {s : State} {l : Lane} {y : Target} (same : (s.lane l).laneState = targetState y) :
    s.takeLaneState l y = s.answer (accepted (laneStateCode (s.lane l).laneState) []) := by
  have enabled : (s.lane l).laneState ≠ .disabled := by
    rw [same]
    cases y <;> exact nofun
  exact (if_neg enabled).trans (if_pos same)

theorem takeLaneState_changes {s : State} {l : Lane} {y : Target} (enabled : (s.lane l).laneState ≠ .disabled)
    (other : (s.lane l).laneState ≠ targetState y) : s.takeLaneState l y =
      (s.changeLane l (targetState y) .order ((s.lane l).laneState == .off && targetState y == .active)).answer
        (accepted (laneStateCode (s.lane l).laneState) []) :=
  (if_neg enabled).trans (if_neg other)

theorem execIdle_due {s : State} {l : Lane} (due : (s.lane l).idle = some 0) (active : (s.lane l).laneState = .active)
    (run : s.run.device = .running ∨ s.run.device = .stopping) :
    exec (.idleTimerExpiry l) s = .next (s.changeLane l .doze .idle false).settle :=
  if_pos ⟨(isDue_iff _).2 due, active, (inRun_iff s).2 run⟩

/-- Settles O35: the order and the idle timer both come down to `changeLane`. -/
theorem laneStateChanges : Obligations.LaneStateChanges := by
  unfold Obligations.LaneStateChanges
  intro s l u
  refine ⟨fun y sl hands => ?_, fun due active run => ?_, fun idle => ?_⟩
  · intro new
    have target : new = targetState y := by cases y <;> rfl
    clear_value new
    subst target
    refine ⟨fun disabled => ?_, fun same => ?_, fun enabled other => ?_⟩
    · exact answeredBy_of_taking (exec_laneState l y s) hands (takeLaneState_disabled y disabled) rfl rfl
    · exact answeredBy_of_taking (exec_laneState l y s) hands (takeLaneState_same same) rfl rfl
    · have frame := (LaneStep.changeLane l s (targetState y) .order (u.laneState == .off && targetState y == .active)).toLaneFrame
      refine ⟨_, answeredBy_of_taking (exec_laneState l y s) hands (takeLaneState_changes enabled other) frame.walker frame.clock, frame,
        laneChange_spec s l _ _ _, changeLane_makes _ _ _, ?_⟩
      rw [changeLane_kb]
      simp only [Bool.and_eq_true, beq_iff_eq]
      rfl
  · exact ⟨_, _, execIdle_due due active run, settle_frame _, (LaneStep.changeLane l s .doze .idle false).toLaneFrame,
      laneChange_spec s l _ _ _, changeLane_makes _ _ _, changeLane_kb s l _ _ _⟩
  · exact if_neg fun h => idle ((isDue_iff _).1 h.1)

/-! ## A wake behind a change of another part of the lane (R7, R13, R79) -/

/-- `v` is `u` but for its keylock reader, its label acceptor, its drawer and its rewrite flag. -/
def LaneUnit.Aside (u v : LaneUnit) : Prop :=
  v = { u with keylock := v.keylock, acceptor := v.acceptor, drawer := v.drawer, rewrite := v.rewrite }

theorem LaneUnit.Aside.port {u v : LaneUnit} (aside : u.Aside v) (p : Port) : v.port p = u.port p := by
  rw [aside]
  cases p <;> rfl

theorem Offers.aside {s : State} {l : Lane} {f : LaneUnit → LaneUnit} (aside : (s.lane l).Aside (f (s.lane l))) :
    Offers l s (s.modLane l f) [] :=
  Offers.modLane (by rw [aside]) (by rw [aside])

theorem WokenBy.aside {s t : State} {l : Lane} {w : WakeSource} {f : LaneUnit → LaneUnit} (aside : (s.lane l).Aside (f (s.lane l)))
    (woken : WokenBy (s.modLane l f) t l w) : WokenBy s t l w := by
  have lane : (s.modLane l f).lane l = f (s.lane l) := lane_modLane_same s l f
  refine woken.before rfl ?_ ?_ ?_ ?_ ?_ (fun p => ?_) ?_ <;> rw [lane]
  case refine_6 => exact aside.port p
  all_goals rw [aside]

theorem wakeRecords_aside {s : State} {l : Lane} {f : LaneUnit → LaneUnit} (w : WakeSource) (aside : (s.lane l).Aside (f (s.lane l))) :
    (s.modLane l f).wakeRecords l w = s.wakeRecords l w := by
  have lane : (s.modLane l f).lane l = f (s.lane l) := lane_modLane_same s l f
  refine wakeRecords_congr w rfl ?_ ?_ ?_ (fun p => ?_) <;> rw [lane]
  case refine_4 => exact aside.port p
  all_goals rw [aside]

/-! ## The adoption of a position (R13, R14, R17) -/

/-- The position is handed on, before any wake. -/
def LaneUnit.positioned (pos : Position) (u : LaneUnit) : LaneUnit :=
  { u with keylock := { u.keylock with position := pos, candidate := none, settle := none }, rewrite := true }

/-- The lane has its new position and the KEYLOCK record. -/
def State.keyed (s : State) (l : Lane) (pos : Position) (bad : Bool) : State :=
  ((s.modLane l (LaneUnit.positioned pos)).wake l .keylock).offer l (.keylock pos (s.lane l).keylock.position bad)

theorem adopt_eq (s : State) (l : Lane) (pos : Position) (bad : Bool) : s.adopt l pos bad =
    if (s.lane l).keylock.position = .lock ∧ pos ≠ .lock ∧
        (((s.keyed l pos bad).lane l).laneState = .active ∨ ((s.keyed l pos bad).lane l).laneState = .doze) then
      (s.keyed l pos bad).offer l (((s.keyed l pos bad).lane l).imageRecord .resync)
    else s.keyed l pos bad := rfl

theorem keyed_spec (s : State) (l : Lane) (pos : Position) (bad : Bool) :
    ((s.keyed l pos bad).lane l).keylock = { (s.lane l).keylock with position := pos, candidate := none, settle := none } ∧
    WokenBy s (s.keyed l pos bad) l .keylock ∧ ((s.keyed l pos bad).lane l).rewrite = true ∧
    Offers l s (s.keyed l pos bad) (s.wakeRecords l .keylock ++ [.keylock pos (s.lane l).keylock.position bad]) := by
  have aside : (s.lane l).Aside ((s.lane l).positioned pos) := rfl
  have lane : (s.modLane l (LaneUnit.positioned pos)).lane l = (s.lane l).positioned pos := lane_modLane_same s l _
  obtain ⟨-, keylock, -, rewrite⟩ := wake_fields (s.modLane l (LaneUnit.positioned pos)) l .keylock
  have booked := booked_offer ((s.modLane l (LaneUnit.positioned pos)).wake l .keylock) l l
    (.keylock pos (s.lane l).keylock.position bad)
  have woken := (wokenBy_wake (s.modLane l (LaneUnit.positioned pos)) l .keylock).aside aside
  have offers := (Offers.aside aside).trans (Offers.wake l (s.modLane l (LaneUnit.positioned pos)) .keylock)
  rw [wakeRecords_aside .keylock aside] at offers
  refine ⟨?_, woken.after booked (KeepsCounter.offer (d := .labelsRefused) (by decide) l _ _), booked.2 (rewrite ?_),
    offers.trans (Offers.offer l _ _)⟩
  · rw [State.keyed, booked.1]
    exact keylock.trans (by rw [lane]; rfl)
  · rw [lane]
    rfl

/-- Everything the adoption of a position does in its lane. -/
theorem adopt_spec (s : State) (l : Lane) (pos : Position) (bad : Bool) :
    let m := s.adopt l pos bad
    (m.lane l).keylock = { (s.lane l).keylock with position := pos, candidate := none, settle := none } ∧ WokenBy s m l .keylock ∧
    (m.lane l).rewrite = true ∧ Offers l s m (s.wakeRecords l .keylock ++ .keylock pos (s.lane l).keylock.position bad ::
      if (s.lane l).keylock.position = .lock ∧ pos ≠ .lock ∧ ((m.lane l).laneState = .active ∨ (m.lane l).laneState = .doze) then
        [(m.lane l).imageRecord .resync] else []) := by
  obtain ⟨keylock, woken, rewrite, offers⟩ := keyed_spec s l pos bad
  rw [adopt_eq]
  generalize s.keyed l pos bad = b at *
  by_cases leaves : (s.lane l).keylock.position = .lock ∧ pos ≠ .lock ∧ ((b.lane l).laneState = .active ∨ (b.lane l).laneState = .doze)
  · simp only [if_pos leaves]
    have booked := booked_offer b l l ((b.lane l).imageRecord .resync)
    have state : ((b.offer l ((b.lane l).imageRecord .resync)).lane l).laneState = (b.lane l).laneState := by rw [booked.1]
    have image : ((b.offer l ((b.lane l).imageRecord .resync)).lane l).imageRecord .resync = (b.lane l).imageRecord .resync := by
      rw [booked.1]
      rfl
    rw [state, image, if_pos leaves]
    refine ⟨by rw [booked.1]; exact keylock, woken.after booked (KeepsCounter.offer (d := .labelsRefused) (by decide) l _ _),
      booked.2 rewrite, ?_⟩
    have both := offers.trans (Offers.offer l b ((b.lane l).imageRecord .resync))
    rwa [List.append_assoc] at both
  · simp only [if_neg leaves]
    exact ⟨keylock, woken, rewrite, offers⟩

/-! ## The readings of the contacts (R12 to R14) -/

theorem positionOf_contactsOf (pos : Position) : positionOf (contactsOf pos) = some pos := by
  cases pos <;> rfl

theorem positionOf_bad {bad : BitVec 4} (more : oneContact bad = false) : positionOf bad = none := by
  revert more
  revert bad
  decide

theorem setContacts_unchanged (u : LaneUnit) : u.setContacts u.keylock.contacts = u := if_pos rfl

theorem setContacts_stopped {u : LaneUnit} (contacts : BitVec 4) (stopped : u.keylock.running = false) :
    u.setContacts contacts = { u with keylock := { u.keylock with contacts := contacts } } := by
  unfold LaneUnit.setContacts
  by_cases same : u.keylock.contacts = contacts
  · rw [if_pos same, ← same]
  · rw [if_neg same]
    exact if_neg (by rw [stopped]; decide)

theorem setContacts_valid {u : LaneUnit} {pos : Position} (running : u.keylock.running = true) (other : u.keylock.contacts ≠ contactsOf pos) :
    u.setContacts (contactsOf pos) = { u with
      keylock := { u.keylock with contacts := contactsOf pos }.valid pos u.settings.settleMs } := by
  unfold LaneUnit.setContacts LaneUnit.takeReading
  rw [if_neg other]
  dsimp only
  rw [if_pos running, positionOf_contactsOf]

theorem setContacts_invalid {u : LaneUnit} {bad : BitVec 4} (more : oneContact bad = false) (running : u.keylock.running = true)
    (other : u.keylock.contacts ≠ bad) :
    u.setContacts bad = { u with keylock := { u.keylock with contacts := bad }.invalid } := by
  unfold LaneUnit.setContacts LaneUnit.takeReading
  rw [if_neg other]
  dsimp only
  rw [if_pos running, positionOf_bad more]

theorem exec_reading (s : State) (l : Lane) (pos : Position) (bad : BitVec 4) :
    exec (.keylockValidReading l pos) s = .next (s.setLane l ((s.lane l).setContacts (contactsOf pos))) ∧
    exec (.keylockInvalidReading l bad) s = .next (s.setLane l ((s.lane l).setContacts bad)) := ⟨rfl, rfl⟩

/-! ## The two expiries -/

theorem execSettle_due {s : State} {l : Lane} {pos : Position} (due : (s.lane l).keylock.settle = some 0)
    (candidate : (s.lane l).keylock.candidate = some pos) :
    exec (.keylockSettleExpiry l) s = .next (s.adopt l pos false).settle := by
  show execKeylockSettleExpiry l s = _
  unfold execKeylockSettleExpiry
  dsimp only
  rw [if_pos ((isDue_iff _).2 due), candidate]

theorem execIndet_due {s : State} {l : Lane} (due : (s.lane l).keylock.indet = some 0) :
    exec (.keylockIndeterminateExpiry l) s = .next (s.keylockIndeterminate l).settle := if_pos ((isDue_iff _).2 due)

/-- The indeterminate timer has stopped. -/
def LaneUnit.determined (u : LaneUnit) : LaneUnit := { u with keylock := { u.keylock with indet := none } }

theorem keylockIndeterminate_eq (s : State) (l : Lane) : s.keylockIndeterminate l =
    if (s.lane l).keylock.position = .lock then s.modLane l LaneUnit.determined
    else (s.modLane l LaneUnit.determined).adopt l .lock true := by
  have lane : (s.modLane l LaneUnit.determined).lane l = (s.lane l).determined := lane_modLane_same s l _
  have position : ((s.modLane l LaneUnit.determined).lane l).keylock.position = (s.lane l).keylock.position := by rw [lane]; rfl
  rw [← position]
  rfl

/-- Settles O38: the readings by what each makes of the reader, the expiries by the adoption of a position. -/
theorem keylockReader : Obligations.KeylockReader := by
  unfold Obligations.KeylockReader
  refine ⟨fun s l pos bad more => ?_, fun s l pos => ?_⟩
  · intro u k
    obtain ⟨valid, invalid⟩ := exec_reading s l pos bad
    rw [valid, invalid]
    refine ⟨fun running other same => ?_, fun running other moved => ?_, fun running other => ?_, fun stopped => ?_, fun same => ?_,
      fun same => ?_⟩
    · rw [setContacts_valid running other, Keylock.valid, if_pos same]
    · rw [setContacts_valid running other, Keylock.valid, if_neg moved]
    · rw [setContacts_invalid more running other, Keylock.invalid]
    · rw [setContacts_stopped _ stopped, setContacts_stopped _ stopped]
      exact ⟨rfl, rfl⟩
    · rw [← same, setContacts_unchanged, setLane_lane]
    · rw [← same, setContacts_unchanged, setLane_lane]
  · intro u k
    refine ⟨fun due candidate => ?_, fun due other => ?_, fun due same => ?_, fun idle => ?_, fun idle => ?_⟩
    · obtain ⟨keylock, woken, rewrite, offers⟩ := adopt_spec s l pos false
      refine ⟨_, _, execSettle_due due candidate, settle_frame _, (LaneStep.adopt l s pos false).toLaneFrame, keylock, woken, rewrite,
        fun room => offers.makes (room.room.mono ?_)⟩
      have wake := wakeRecords_length_le s l .keylock
      rw [List.length_append, List.length_cons]
      split
      · rw [List.length_singleton]
        omega
      · rw [List.length_nil]
        omega
    · have ran := execIndet_due due
      rw [keylockIndeterminate_eq, if_neg other] at ran
      have aside : (s.lane l).Aside (s.lane l).determined := rfl
      have lane : (s.modLane l LaneUnit.determined).lane l = (s.lane l).determined := lane_modLane_same s l _
      have frame := (LaneStep.modLane (s := s) (l := l) (f := LaneUnit.determined) ⟨rfl, rfl, rfl, rfl, rfl, rfl⟩ fun _ h => h).trans
        (LaneStep.adopt l _ .lock true)
      obtain ⟨keylock, woken, rewrite, offers⟩ := adopt_spec (s.modLane l LaneUnit.determined) l .lock true
      replace offers := (Offers.aside aside).trans offers
      rw [lane] at keylock offers
      rw [if_neg fun h => h.2.1 rfl, wakeRecords_aside .keylock aside, List.nil_append] at offers
      refine ⟨_, _, ran, settle_frame _, frame.toLaneFrame, keylock, woken.aside aside, rewrite,
        fun room => offers.makes (room.room.mono ?_)⟩
      have wake := wakeRecords_length_le s l .keylock
      rw [List.length_append, List.length_singleton]
      omega
    · have ran := execIndet_due due
      rw [keylockIndeterminate_eq, if_pos same] at ran
      exact ⟨_, _, ran, settle_frame _, rfl⟩
    · exact if_neg fun due => idle ((isDue_iff _).1 due)
    · exact if_neg fun due => idle ((isDue_iff _).1 due)

end Sys2Proof.Machine
end

section
/-! PROOFS. The other events of the keyboard (O42): the end of a capture, the typematic timer, and any-key sensing. -/

namespace Sys2Proof.Machine

/-! ## The end of a baseline capture, and the typematic timer (R10, R33, R34) -/

theorem execCapture_due {s : State} {l : Lane} (due : (s.lane l).kb.capture = some 0) : exec (.baselineCaptureEnd l) s =
    .next ((s.modLane l LaneUnit.dropCapture).offer l ((s.lane l).imageRecord .baseline)).settle := if_pos due

theorem execTypematic_due {s : State} {l : Lane} {y : Typematic} (running : (s.lane l).kb.typematic = some y) (due : y.left = 0) :
    exec (.typematicExpiry l) s = .next (s.repeatKey l y.key).settle := by
  show execTypematicExpiry l s = _
  rw [execTypematicExpiry, running]
  exact if_pos due

/-- The sequence of `k` has its repeat interval before it. -/
def LaneUnit.repeating (k : Key) (u : LaneUnit) : LaneUnit :=
  { u with kb := { u.kb with typematic := some { key := k, repeating := true, left := msTicks u.settings.repeatMs } } }

theorem repeatKey_eq (s : State) (l : Lane) (k : Key) : s.repeatKey l k =
    if (s.lane l).keylock.position = .lock then s.modLane l (LaneUnit.repeating k)
    else (s.modLane l (LaneUnit.repeating k)).offer l (.keyRepeat k (s.lane l).kb.image.length) := by
  have step : (s.modKb l fun kb =>
      { kb with typematic := some { key := k, repeating := true, left := msTicks (s.lane l).settings.repeatMs } }) =
        s.modLane l (LaneUnit.repeating k) := congrArg (s.setLane l) rfl
  unfold State.repeatKey
  dsimp only
  rw [step]

/-! ## Any-key sensing (R35) -/

theorem execExamination_due {s : State} {l : Lane} {active : Bool}
    (due : (s.lane l).kb.mode = .anyKey ∧ (s.lane l).kb.passTimer = some 0) :
    exec (.anyKeyExamination l active) s = .next (s.setLane l ((s.lane l).examine active)) :=
  if_pos ⟨due.1, (isDue_iff _).2 due.2⟩

theorem examined_waiting {kb : Keyboard} (d : Nat) (waiting : kb.anyStage = .waitClear) :
    kb.examined d true = { kb with anyCount := 0 } ∧
    kb.examined d false = if d ≤ kb.anyCount + 1 then { kb with anyStage := .armed, anyCount := 0 }
      else { kb with anyCount := kb.anyCount + 1 } := by
  simp only [Keyboard.examined, waiting, and_self]

theorem examined_armed {kb : Keyboard} (d : Nat) (armed : kb.anyStage = .armed) :
    kb.examined d false = { kb with anyCount := 0 } ∧
    kb.examined d true = if d ≤ kb.anyCount + 1 then { kb with anyCount := 0, detected := true }
      else { kb with anyCount := kb.anyCount + 1 } := by
  simp only [Keyboard.examined, armed, and_self]

theorem execDetection {s : State} {l : Lane} (detected : (s.lane l).kb.detected = true) :
    exec (.anyKeyDetection l) s = .next (s.detectKey l).settle := if_pos detected

theorem kbIn_active {u : LaneUnit} (configured : u.configured = true) (other : u.kb.mode ≠ .scanning) :
    u.kbIn .active = { Keyboard.reset with mode := .scanning, passTimer := some u.settings.pass } := by
  have mode : { u with laneState := .active }.scanMode = .scanning := by
    rw [scanMode_eq]
    exact if_pos configured
  rw [LaneUnit.kbIn, mode, if_neg (Ne.symm other)]
  rfl

/-- Settles O42: each event by the operation it comes down to, and by what that leaves of the keyboard. -/
theorem keyboardEvents : Obligations.KeyboardEvents := by
  unfold Obligations.KeyboardEvents
  refine ⟨fun s l => ?_, fun s l active => ?_⟩
  · intro u
    refine ⟨fun due => ?_, fun idle => if_neg idle, fun y running due => ?_, fun idle => ?_⟩
    · have booked := booked_offer (s.modLane l LaneUnit.dropCapture) l l (u.imageRecord .baseline)
      obtain ⟨same, keeps⟩ := dropCapture_keys u
      have offers := (Offers.modLane (l := l) (m := l) (s := s) (f := LaneUnit.dropCapture) rfl rfl).trans
        (Offers.offer l _ (u.imageRecord .baseline))
      refine ⟨_, _, execCapture_due due, settle_frame _,
        ((LaneStep.modLane same keeps).trans (LaneStep.offer _ _)).toLaneFrame, ?_,
        fun room => offers.makes (room.room.mono (Nat.le_of_ble_eq_true rfl))⟩
      rw [booked.1, lane_modLane_same]
      rfl
    · refine ⟨_, _, execTypematic_due running due, settle_frame _, (LaneStep.repeatKey l s y.key).toLaneFrame, ?_, fun open_ room => ?_,
        fun lock => ?_⟩
      · rw [repeatKey_eq]
        split
        · rw [lane_modLane_same]
          rfl
        · rw [(booked_offer _ l l _).1, lane_modLane_same]
          rfl
      · rw [repeatKey_eq, if_neg open_]
        exact ((Offers.modLane (l := l) (m := l) (s := s) (f := LaneUnit.repeating y.key) rfl rfl).trans (Offers.offer l _ _)).makes
          (room.room.mono (Nat.le_of_ble_eq_true rfl))
      · rw [repeatKey_eq, if_pos lock]
        rfl
    · show execTypematicExpiry l s = _
      unfold execTypematicExpiry
      split
      next y running => exact if_neg (idle y running)
      next => rfl
  · intro u n due after
    have examines {stage : AnyStage} {count : Nat} {detected : Bool} (is : due) (becomes : u.kb.examined u.settings.debounce active =
        { u.kb with anyStage := stage, anyCount := count, detected := detected }) : after stage count detected := by
      refine (execExamination_due is).trans ?_
      rw [LaneUnit.examine, becomes]
    refine ⟨fun is waiting some_ => ?_, fun is waiting none_ few => ?_, fun is waiting none_ all => ?_, fun is armed none_ => ?_,
      fun is armed some_ few => ?_, fun is armed some_ all => ?_, fun none_ => ?_, fun detected configured doze mask run other => ?_,
      fun detected mode no => ?_, fun none_ => if_neg (by rw [none_]; decide)⟩
    · subst some_
      refine examines is ((examined_waiting _ waiting).1.trans ?_)
      rw [← waiting]
    · subst none_
      refine examines is ((examined_waiting _ waiting).2.trans ((if_neg (by omega)).trans ?_))
      rw [← waiting]
    · subst none_
      exact examines is ((examined_waiting _ waiting).2.trans (if_pos all))
    · subst none_
      refine examines is ((examined_armed _ armed).1.trans ?_)
      rw [← armed]
    · subst some_
      refine examines is ((examined_armed _ armed).2.trans ((if_neg (by omega)).trans ?_))
      rw [← armed]
    · subst some_
      refine examines is ((examined_armed _ armed).2.trans ((if_pos all).trans ?_))
      rw [← armed]
    · exact if_neg fun is => none_ ⟨is.1, (isDue_iff _).1 is.2⟩
    · have wakes : s.wakes l .key = true := by
        rw [State.wakes, decide_eq_true_eq]
        exact ⟨doze, mask, run⟩
      have woken : s.wake l .key = s.changeLane l .active (.wake .key) false := by rw [wake_eq, if_pos wakes]
      have kb : ((s.changeLane l .active (.wake .key) false).lane l).kb = _ := (changeLane_kb s l .active (.wake .key) false).trans
        (kbIn_active configured other)
      have detects : s.detectKey l = s.changeLane l .active (.wake .key) false := by
        unfold State.detectKey
        rw [woken]
        exact if_neg (by rw [kb]; exact nofun)
      have ran := execDetection detected
      rw [detects] at ran
      exact ⟨_, _, ran, settle_frame _, (LaneStep.changeLane l s _ _ _).toLaneFrame, laneChange_spec s l _ _ _,
        changeLane_makes _ _ _, kb⟩
    · have wakes : s.wakes l .key = false := by
        rw [State.wakes, decide_eq_false_iff_not]
        exact no
      have woken : s.wake l .key = s := by rw [wake_eq, wakes]; rfl
      have ran := execDetection detected
      unfold State.detectKey at ran
      rw [woken] at ran
      dsimp only at ran
      rw [if_pos mode] at ran
      exact ⟨_, _, ran, settle_frame _, rfl⟩

end Sys2Proof.Machine
end

section
/-! PROOFS. A character at a port (O44): what a sampled character is, and what it does by the state of the frame. -/

namespace Sys2Proof.Machine

/-! ## Values and errors (R43) -/

/-- The ones among eight sampled bits. -/
theorem length_filter_range (bits : Byte) : ((List.range 8).filter fun i => bits.getLsbD i).length =
    (Finset.univ.filter fun i : Fin 8 => bits.getLsbD i.val = true).card := by
  have range : List.range 8 = (List.finRange 8).map Fin.val := rfl
  have card : (Finset.univ.filter fun i : Fin 8 => bits.getLsbD i.val = true).card =
      ((List.finRange 8).filter fun i => decide (bits.getLsbD i.val = true)).length := rfl
  rw [range, List.filter_map, List.length_map, card]
  simp only [Function.comp_def, Bool.decide_eq_true]

theorem evenOnes_eq (bits : Byte) :
    evenOnes bits = decide ((Finset.univ.filter fun i : Fin 8 => bits.getLsbD i.val = true).card % 2 = 0) := by
  rw [evenOnes, length_filter_range]
  rfl

theorem receiveChar_even (bits : Byte) (stop : Bool) : receiveChar .f7e1 (.sampled bits stop) = (bits &&& 0x7F, !(stop && evenOnes bits)) := by
  rw [Bool.not_and]
  rfl

theorem receiveChar_odd (bits : Byte) (stop : Bool) : receiveChar .f7o1 (.sampled bits stop) = (bits &&& 0x7F, !(stop && !evenOnes bits)) := by
  rw [Bool.not_and, Bool.not_not]
  rfl

/-! ## The character at the receiver -/

/-- The line is high or held low as the character says. -/
def ScanPort.heard (low : Bool) (q : ScanPort) : ScanPort := { q with lineLow := low }

theorem modPort_twice (s : State) (l : Lane) (p : Port) (f g : ScanPort → ScanPort) :
    (s.modPort l p f).modPort l p g = s.modPort l p fun q => g (f q) := by
  have first : s.modPort l p f = s.setLane l ((s.lane l).modPort p f) := rfl
  rw [first, State.modPort, modLane_setLane, modPort_modPort]
  rfl

theorem modPort_idle {s : State} {l : Lane} {p : Port} {f : ScanPort → ScanPort} (same : f ((s.lane l).port p) = (s.lane l).port p) :
    s.modPort l p f = s := by
  rw [modPort_same (g := fun q => q) same]
  have unit : (s.lane l).modPort p (fun q => q) = s.lane l := by cases p <;> rfl
  rw [State.modPort, State.modLane, unit, setLane_lane]

theorem receive_eq {s : State} {l : Lane} {p : Port} (ch : RxChar) (high : ((s.lane l).port p).lineLow = false) :
    s.receive l p ch = (s.modPort l p (ScanPort.heard (decide (ch = .heldLow)))).takeChar l p
      (receiveChar ((s.lane l).portSettings p).format ch).1 (receiveChar ((s.lane l).portSettings p).format ch).2 := by
  have same : s.modPort l p (ScanPort.heard false) = s := modPort_idle (by rw [ScanPort.heard, ← high])
  unfold State.receive
  dsimp only
  by_cases low : ch = .heldLow
  · rw [if_pos low, decide_eq_true low]
    rfl
  · rw [if_neg low, decide_eq_false low, same]

theorem execCharacter {s : State} {l : Lane} {p : Port} (ch : RxChar) (on : ((s.lane l).port p).on = true)
    (high : ((s.lane l).port p).lineLow = false) : exec (.characterReceived l p ch) s = .next (s.receive l p ch).settle :=
  if_pos (by rw [ScanPort.hears, on, high]; rfl)

theorem isTerminator_iff (c : PortSettings) (v : Byte) (err : Bool) : c.isTerminator v err = true ↔
    err = false ∧ v = if c.format = .f8n1 then c.terminator else c.terminator &&& 0x7F := by
  rw [PortSettings.isTerminator, Bool.and_eq_true, Bool.not_eq_true', beq_iff_eq]

/-- A character without an error is not a line held low. -/
theorem high_of_sound {format : CharFormat} {ch : RxChar} (sound : (receiveChar format ch).2 = false) : ch ≠ .heldLow := by
  rintro rfl
  exact absurd sound (by cases format <;> decide)

theorem execCharacter_ends {s : State} {l : Lane} {p : Port} {ch : RxChar} (on : ((s.lane l).port p).on = true)
    (high : ((s.lane l).port p).lineLow = false)
    (ends : ((s.lane l).portSettings p).isTerminator (receiveChar ((s.lane l).portSettings p).format ch).1
      (receiveChar ((s.lane l).portSettings p).format ch).2 = true) :
    exec (.characterReceived l p ch) s = .next (s.takeChar l p (receiveChar ((s.lane l).portSettings p).format ch).1
      (receiveChar ((s.lane l).portSettings p).format ch).2).settle := by
  have low := decide_eq_false (high_of_sound ((isTerminator_iff _ _ _).1 ends).1)
  have still : s.modPort l p (ScanPort.heard false) = s := modPort_idle (by rw [ScanPort.heard, ← high])
  rw [execCharacter ch on high, receive_eq ch high, low, still]

/-! ## The frame (R44 to R49) -/

theorem place_eq (q : ScanPort) (c : PortSettings) (v : Byte) (err : Bool) : q.place c v err = { q with
    gap := some (msTicks c.gapMs)
    damaged := q.damaged || err
    mark := if c.markMode = true ∧ q.mark = none then some v else q.mark
    text := if (c.markMode = true ∧ q.mark = none) ∨ 48 ≤ q.text.length then q.text else q.text ++ [v]
    tooLong := q.tooLong || decide (¬(c.markMode = true ∧ q.mark = none) ∧ 48 ≤ q.text.length) } := by
  have mark : (c.markMode && q.mark.isNone) = true ↔ c.markMode = true ∧ q.mark = none := by
    rw [Bool.and_eq_true, Option.isNone_iff_eq_none]
  unfold ScanPort.place
  dsimp only
  by_cases first : c.markMode = true ∧ q.mark = none
  · rw [if_pos (mark.2 first), if_pos first, if_pos (.inl first), decide_eq_false fun h => h.1 first, Bool.or_false]
  · rw [if_neg fun h => first (mark.1 h), if_neg first]
    by_cases full : 48 ≤ q.text.length
    · rw [if_neg (by omega), if_pos (.inr full), decide_eq_true ⟨first, full⟩, Bool.or_true]
    · rw [if_pos (by omega), if_neg (not_or.2 ⟨first, full⟩), decide_eq_false fun h => full h.2, Bool.or_false]

theorem takeChar_waiting {s : State} {l : Lane} {p : Port} (v : Byte) (err : Bool) (frame : ((s.lane l).port p).frame = .waiting) :
    s.takeChar l p v err = s.beginFrame l p v err := by
  unfold State.takeChar
  rw [frame]

theorem takeChar_assembling {s : State} {l : Lane} {p : Port} (v : Byte) (err : Bool) (frame : ((s.lane l).port p).frame = .assembling) :
    s.takeChar l p v err = if ((s.lane l).portSettings p).isTerminator v err then s.endFrame l p
      else s.modPort l p fun q => q.place ((s.lane l).portSettings p) v err := by
  unfold State.takeChar
  rw [frame]

theorem takeChar_discarding {s : State} {l : Lane} {p : Port} (v : Byte) (err : Bool) (frame : ((s.lane l).port p).frame = .discarding) :
    s.takeChar l p v err = if ((s.lane l).portSettings p).isTerminator v err then s.modPort l p ScanPort.toWaiting
      else s.modPort l p fun q => { q with gap := some (msTicks ((s.lane l).portSettings p).gapMs) } := by
  unfold State.takeChar
  rw [frame]

theorem portSettings_modPort (u : LaneUnit) (p : Port) (f : ScanPort → ScanPort) : (u.modPort p f).portSettings p = u.portSettings p := by
  cases p <;> rfl

theorem ready_heard (s : State) (l : Lane) (p : Port) (low : Bool) : (s.modPort l p (ScanPort.heard low)).ready l p = s.ready l p := by
  unfold State.ready
  rw [lane_modPort]
  cases p <;> rfl

theorem beginFrame_ends {s : State} {l : Lane} {p : Port} {v : Byte} {err : Bool}
    (ends : ((s.lane l).portSettings p).isTerminator v err = true) :
    s.beginFrame l p v err = s.modPort l p fun q => { q with gap := none } := if_pos ends

/-- The frame is begun with its first character. -/
def ScanPort.begun (c : PortSettings) (v : Byte) (err : Bool) (q : ScanPort) : ScanPort :=
  { q.clearFrame with frame := .assembling }.place c v err

theorem beginFrame_ready {s : State} {l : Lane} {p : Port} {v : Byte} {err : Bool}
    (no : ((s.lane l).portSettings p).isTerminator v err ≠ true) (ready : s.ready l p = true) : s.beginFrame l p v err =
      (s.modPort l p (ScanPort.begun ((s.lane l).portSettings p) v err)).wake l (portSource p) :=
  (if_neg no).trans (if_pos ready)

theorem beginFrame_unready {s : State} {l : Lane} {p : Port} {v : Byte} {err : Bool}
    (no : ((s.lane l).portSettings p).isTerminator v err ≠ true) (unready : s.ready l p ≠ true) :
    s.beginFrame l p v err = s.holdFrame l p := (if_neg no).trans (if_neg unready)

/-- A frame that is discarded whole from its first character on. -/
def ScanPort.swallowed (c : PortSettings) (q : ScanPort) : ScanPort :=
  { q.clearFrame with frame := .discarding, gap := some (msTicks c.gapMs) }

theorem holdFrame_eq (s : State) (l : Lane) (p : Port) : s.holdFrame l p =
    if s.run.device = .running ∧ (s.lane l).laneState = .active then
      ((s.modPort l p (ScanPort.swallowed ((s.lane l).portSettings p))).offer l (.labelRefused p (.held 0))).count l .labelsRefused
    else s.modPort l p (ScanPort.swallowed ((s.lane l).portSettings p)) := rfl

theorem endFrame_empty {s : State} {l : Lane} {p : Port} (empty : ((s.lane l).port p).text = []) :
    s.endFrame l p = s.modPort l p ScanPort.toWaiting := if_pos empty

/-! ## A wake behind a change of a port that the wake does not cut -/

theorem cutPorts_modPort {u : LaneUnit} {p : Port} {f : ScanPort → ScanPort} {new : LaneState}
    (stays : { u with laneState := new }.receiverOn p = true) : (u.modPort p f).cutPorts new = u.cutPorts new := by
  refine List.filter_congr fun r _ => ?_
  have receiver : { u.modPort p f with laneState := new }.receiverOn r = { u with laneState := new }.receiverOn r := by
    cases p <;> cases r <;> rfl
  rw [receiver, port_modPort]
  by_cases same : r = p
  · rw [same, stays]
    simp
  · rw [if_neg same]

theorem changeRecords_modPort {u : LaneUnit} {p : Port} {f : ScanPort → ScanPort} {new : LaneState} (cause : StateCause)
    (stays : { u with laneState := new }.receiverOn p = true) :
    (u.modPort p f).changeRecords new cause = u.changeRecords new cause := by
  rw [LaneUnit.changeRecords, LaneUnit.changeRecords, cutPorts_modPort stays]
  refine congrArg _ (List.map_congr_left fun r cut => ?_)
  have other : r ≠ p := by
    rintro rfl
    have off := (List.mem_filter.1 cut).2
    rw [stays] at off
    simp at off
  rw [port_modPort, if_neg other]

theorem wakeRecords_modPort {s : State} {l : Lane} {p : Port} {f : ScanPort → ScanPort} (w : WakeSource)
    (stays : { s.lane l with laneState := .active }.receiverOn p = true) : (s.modPort l p f).wakeRecords l w = s.wakeRecords l w := by
  have wakes : (s.modPort l p f).wakes l w = s.wakes l w := by
    rw [State.wakes, State.wakes, lane_modPort]
    cases p <;> rfl
  rw [State.wakeRecords, State.wakeRecords, wakes, lane_modPort, changeRecords_modPort _ stays]

theorem WokenBy.modPort {s t : State} {l : Lane} {p : Port} {f : ScanPort → ScanPort} {w : WakeSource}
    (on : (f ((s.lane l).port p)).on = ((s.lane l).port p).on)
    (stays : { s.lane l with laneState := .active }.receiverOn p = true) (woken : WokenBy (s.modPort l p f) t l w) : WokenBy s t l w := by
  have lane : (s.modPort l p f).lane l = (s.lane l).modPort p f := lane_modPort ..
  have wakes : (s.modPort l p f).wakes l w = s.wakes l w := by
    rw [State.wakes, State.wakes, lane]
    cases p <;> rfl
  unfold WokenBy at woken ⊢
  rw [wakes] at woken
  split at woken
  next yes =>
    rw [if_pos yes]
    obtain ⟨⟨state, idle, rewrite, receivers, frames, tones, refused⟩, kb⟩ := woken
    rw [lane] at idle refused kb
    rw [cutPorts_modPort stays] at refused
    have receiver (r : Port) : { (s.lane l).modPort p f with laneState := .active }.receiverOn r =
        { s.lane l with laneState := .active }.receiverOn r := by
      cases p <;> cases r <;> rfl
    refine ⟨⟨state, idle.trans (by cases p <;> rfl), rewrite, fun r => ?_, fun r was is => ?_, tones, refused.trans (by cases p <;> rfl)⟩,
      kb.trans (by cases p <;> rfl)⟩
    · rw [receivers r, lane, receiver]
    · refine frames r ?_ is
      rw [lane, port_modPort]
      split
      next same => rw [on, ← same]; exact was
      next => exact was
  next no =>
    rw [if_neg no]
    obtain ⟨state, idle, kb⟩ := woken
    rw [lane] at state idle kb
    exact ⟨state.trans (by cases p <;> rfl), idle.trans (by cases p <;> rfl), kb.trans (by cases p <;> rfl)⟩

/-- A wake leaves a receiver that is ON, and stays ON, as it is. -/
theorem port_wake {s : State} {l : Lane} {p : Port} (w : WakeSource) (on : ((s.lane l).port p).on = true)
    (stays : { s.lane l with laneState := .active }.receiverOn p = true) : ((s.wake l w).lane l).port p = (s.lane l).port p := by
  rw [port_booked (booked_wake s l w)]
  split
  next =>
    have receiver : ((s.lane l).entering .active).receiverOn p = true := stays
    have port : ((s.lane l).entering .active).port p = (s.lane l).port p := by cases p <;> rfl
    rw [changed_port, LaneUnit.followed, receiver, port, if_pos on.symm]
    rfl
  next => rfl

theorem portSource_eq (p : Port) : portSource p = (match p with | .a => .scanA | .b => .scanB) := by
  cases p <;> rfl

theorem receiverOn_active {u : LaneUnit} {p : Port} (configured : u.configured = true) (enabled : (u.portSettings p).enable = true) :
    { u with laneState := .active }.receiverOn p = true := by
  have same : ({ u with laneState := .active } : LaneUnit).portSettings p = u.portSettings p := by cases p <;> rfl
  rw [LaneUnit.receiverOn, same, configured, enabled]
  rfl

theorem begun_eq (c : PortSettings) (v : Byte) (err : Bool) (q : ScanPort) : q.begun c v err = { q with
    frame := .assembling
    gap := some (msTicks c.gapMs)
    damaged := err
    tooLong := false
    mark := if c.markMode then some v else none
    text := if c.markMode then [] else [v] } := by
  rw [ScanPort.begun, place_eq, ScanPort.clearFrame]
  cases c.markMode <;> rfl

/-- Settles O44: the value and the error by format, the rest by the frame in which the character finds the port. -/
theorem characterReceived : Obligations.CharacterReceived := by
  unfold Obligations.CharacterReceived
  refine ⟨fun bits stop => ?_, fun s l p ch => ?_⟩
  · intro ones
    refine ⟨rfl, ?_, ?_, fun format => by cases format <;> rfl⟩
    · rw [receiveChar_even, evenOnes_eq]
    · have odd : (!decide (ones % 2 = 0)) = decide (ones % 2 = 1) := by
        rw [← decide_not, decide_eq_decide]
        omega
      rw [receiveChar_odd, evenOnes_eq, odd]
  · intro u c q v err low term ready gap
    have ends : c.isTerminator v err = true ↔ term := isTerminator_iff c v err
    have isReady : s.ready l p = true ↔ ready := by
      rw [ready_iff]
      cases p <;> rfl
    have received (on : q.on = true) (high : q.lineLow = false) : exec (.characterReceived l p ch) s =
        .next ((s.modPort l p (ScanPort.heard low)).takeChar l p v err).settle := (execCharacter ch on high).trans
      (congrArg (fun m : State => Host.Outcome.next m.settle) (receive_eq ch high))
    have lane : (s.modPort l p (ScanPort.heard low)).lane l = u.modPort p (ScanPort.heard low) := lane_modPort ..
    have port : ((s.modPort l p (ScanPort.heard low)).lane l).port p = q.heard low := port_modPort_same ..
    have settings : ((s.modPort l p (ScanPort.heard low)).lane l).portSettings p = c := by rw [lane, portSettings_modPort]
    have ended (is : term) (on : q.on = true) (high : q.lineLow = false) : exec (.characterReceived l p ch) s =
        .next (s.takeChar l p v err).settle := execCharacter_ends on high (ends.2 is)
    refine ⟨fun deaf => ?_, fun on high frame is => ?_, fun on high frame no asserted configured => ?_, fun on high frame no unready => ?_,
      fun on high frame no => ?_, fun on high frame is empty => ?_, fun on high frame => ?_⟩
    · refine if_neg fun hears => ?_
      rw [ScanPort.hears, Bool.and_eq_true, Bool.not_eq_true'] at hears
      rcases deaf with off | held
      · exact absurd hears.1 (by rw [show ((s.lane l).port p).on = false from off]; decide)
      · exact absurd hears.2 (by rw [show ((s.lane l).port p).lineLow = true from held]; decide)
    · have ran := ended is on high
      rw [takeChar_waiting v err frame, beginFrame_ends (ends.2 is)] at ran
      exact ⟨_, _, ran, settle_frame _, rfl⟩
    · have unsettled := mt ends.1 no
      have begins := takeChar_waiting (s := s.modPort l p (ScanPort.heard low)) v err (by rw [port]; exact frame)
      rw [beginFrame_ready (by rwa [settings]) ((ready_heard s l p low).trans (isReady.2 asserted)), settings, modPort_twice] at begins
      obtain ⟨-, -, -, enabled, -, -⟩ := asserted
      have stays := receiverOn_active (p := p) configured enabled
      have ran := received on high
      have framed := (LaneStep.receive l s p ch).toLaneFrame
      rw [receive_eq ch high] at framed
      let first : ScanPort → ScanPort := fun q => (q.heard low).begun c v err
      have begun : first q = _ := begun_eq c v err (q.heard low)
      have firstOn : (first q).on = q.on := by rw [begun]; rfl
      have lane' : (s.modPort l p first).lane l = u.modPort p first := lane_modPort ..
      have stays' : { (s.modPort l p first).lane l with laneState := .active }.receiverOn p = true := by
        rw [lane', ← stays]
        cases p <;> rfl
      refine ⟨_, _, ran, settle_frame _, framed, ?_, ?_⟩
      · rw [begins, port_wake _ (by rw [port_modPort_same]; exact firstOn.trans on) stays', port_modPort_same]
        exact begun
      · intro source'
        rw [begins, show source' = portSource p from (portSource_eq p).symm]
        have offers := (Offers.modPort (l := l) (m := l) (s := s) (p := p) (f := first)).trans
          (Offers.wake l (s.modPort l p first) (portSource p))
        rw [wakeRecords_modPort _ stays] at offers
        refine ⟨(wokenBy_wake (s.modPort l p first) l (portSource p)).modPort firstOn stays, fun room => offers.makes (room.room.mono ?_)⟩
        exact Nat.le_trans (wakeRecords_length_le s l _) (by decide)
    · have begins := takeChar_waiting (s := s.modPort l p (ScanPort.heard low)) v err (by rw [port]; exact frame)
      rw [beginFrame_unready (by rw [settings]; exact mt ends.1 no) (by rw [ready_heard]; exact mt isReady.1 unready), holdFrame_eq,
        settings, modPort_twice] at begins
      have ran := received on high
      have framed := (LaneStep.receive l s p ch).toLaneFrame
      rw [receive_eq ch high] at framed
      refine ⟨_, _, ran, settle_frame _, framed, ?_⟩
      rw [begins]
      let gone : ScanPort → ScanPort := fun q => (q.heard low).swallowed c
      have lane' : (s.modPort l p gone).lane l = u.modPort p gone := lane_modPort ..
      have active : ((s.modPort l p (ScanPort.heard low)).lane l).laneState = u.laneState := by
        rw [lane]
        cases p <;> rfl
      rw [active]
      by_cases told : s.run.device = .running ∧ u.laneState = .active
      · rw [if_pos (by exact told)]
        have booked := (booked_offer (s.modPort l p gone) l l (.labelRefused p (.held 0))).trans (booked_count _ l l .labelsRefused)
        have kept : KeepsCounter .labelsRefused l s ((s.modPort l p gone).offer l (.labelRefused p (.held 0))) :=
          (KeepsCounter.modPort .labelsRefused l s p gone).trans (KeepsCounter.offer (by decide) l _ _)
        have same : (((s.modPort l p gone).offer l (.labelRefused p (.held 0))).lane l).settings = u.settings := by
          rw [(booked_offer (s.modPort l p gone) l l (.labelRefused p (.held 0))).1, lane']
          cases p <;> rfl
        refine ⟨?_, fun _ _ => ⟨counted_count kept same, fun room => ?_⟩, fun not => ?_⟩
        · rw [port_booked booked, port_modPort_same]
          rfl
        · exact (((Offers.modPort (l := l) (m := l) (s := s) (p := p) (f := gone)).trans (Offers.offer l _ (.labelRefused p (.held 0)))).trans
            (Offers.count l l _ .labelsRefused)).makes (room.room.mono (Nat.le_of_ble_eq_true rfl))
        · exact (not.elim (fun h => h told.1) fun h => h told.2).elim
      · rw [if_neg (by exact told)]
        refine ⟨port_modPort_same .., fun run act => absurd ⟨run, act⟩ told, fun _ => ⟨rfl, ?_⟩⟩
        rw [lane']
        cases p <;> rfl
    · have places := takeChar_assembling (s := s.modPort l p (ScanPort.heard low)) v err (by rw [port]; exact frame)
      rw [settings, if_neg (mt ends.1 no), modPort_twice] at places
      refine ⟨_, _, received on high, settle_frame _, places.trans (modPort_same ?_)⟩
      rw [place_eq]
      rfl
    · have ran := ended is on high
      rw [takeChar_assembling v err frame, if_pos (ends.2 is), endFrame_empty empty] at ran
      refine ⟨_, _, ran, settle_frame _, modPort_same ?_⟩
      rw [ScanPort.toWaiting, ScanPort.clearFrame, ← show q.text = [] from empty]
    · by_cases is : term
      · have ran := ended is on high
        rw [takeChar_discarding v err frame, if_pos (ends.2 is)] at ran
        exact ⟨_, _, ran, settle_frame _, fun _ => rfl, fun no => absurd is no⟩
      · have swallows := takeChar_discarding (s := s.modPort l p (ScanPort.heard low)) v err (by rw [port]; exact frame)
        rw [settings, if_neg (mt ends.1 is), modPort_twice] at swallows
        exact ⟨_, _, received on high, settle_frame _, fun yes => absurd yes is, fun _ => swallows⟩

end Sys2Proof.Machine
end

section
/-! PROOFS. A frame with text is judged (O45): the check digit, the duplicate test, and what a refusal, a duplicate and an acceptance leave. -/

namespace Sys2Proof.Machine

/-! ## The check digit (R64, R65) -/

theorem weightedSum_eq (bs : List Byte) {w : Nat} (small : w ≤ 4) : weightedSum bs w =
    ∑ j ∈ Finset.range bs.length, ((byteAt bs j).toNat - 0x30) * if j % 2 = 0 then w else 4 - w := by
  induction bs generalizing w with
  | nil => rfl
  | cons b bs ih =>
    rw [weightedSum, ih (by omega), List.length_cons, Finset.sum_range_succ', Nat.add_comm]
    congr 1
    refine Finset.sum_congr rfl fun j _ => ?_
    have turn : (if (j + 1) % 2 = 0 then w else 4 - w) = if j % 2 = 0 then 4 - w else 4 - (4 - w) := by
      split <;> split <;> omega
    rw [turn]
    rfl

theorem byteAt_dropLast_reverse (text : List Byte) {j : Nat} (inside : j < text.length - 1) :
    byteAt text.dropLast.reverse j = byteAt text (text.length - 2 - j) := by
  have length : text.dropLast.reverse.length = text.length - 1 := by rw [List.length_reverse, List.length_dropLast]
  rw [byteAt, byteAt, List.getD_eq_getElem _ _ (by omega), List.getD_eq_getElem _ _ (by omega), List.getElem_reverse, List.getElem_dropLast]
  congr 1
  rw [List.length_dropLast]
  omega

theorem expectedDigit_eq (text : List Byte) : expectedDigit text = (10 - (∑ i ∈ Finset.range (text.length - 1),
    ((byteAt text i).toNat - 0x30) * if (text.length - 2 - i) % 2 = 0 then 3 else 1) % 10) % 10 := by
  have sums : weightedSum text.dropLast.reverse 3 = ∑ i ∈ Finset.range (text.length - 1),
      ((byteAt text i).toNat - 0x30) * if (text.length - 2 - i) % 2 = 0 then 3 else 1 := by
    rw [weightedSum_eq _ (by decide), List.length_reverse, List.length_dropLast,
      ← Finset.sum_range_reflect (fun i => ((byteAt text i).toNat - 0x30) * if (text.length - 2 - i) % 2 = 0 then 3 else 1)]
    refine Finset.sum_congr rfl fun j mem => ?_
    have inside := Finset.mem_range.1 mem
    rw [byteAt_dropLast_reverse text inside, show text.length - 1 - 1 - j = text.length - 2 - j by omega,
      show text.length - 2 - (text.length - 2 - j) = j by omega]
  rw [expectedDigit, sums]

theorem checkPasses_iff (text : List Byte) :
    checkPasses text = true ↔ (byteAt text (text.length - 1)).toNat = 0x30 + expectedDigit text := by
  have last : text.getLastD 0 = byteAt text (text.length - 1) := by
    rw [List.getLastD_eq_getLast?, List.getLast?_eq_getElem?, byteAt, List.getD_eq_getElem?_getD]
  rw [checkPasses, beq_iff_eq, last]

theorem checkApplies_iff (c : PortSettings) (text : List Byte) : checkApplies c text = true ↔
    c.check = true ∧ (text.all fun b => decide (0x30 ≤ b.toNat ∧ b.toNat ≤ 0x39)) = true ∧
      (text.length = 8 ∨ text.length = 12 ∨ text.length = 13 ∨ text.length = 14) := by
  have digit : isDigit = fun b : Byte => decide (0x30 ≤ b.toNat ∧ b.toNat ≤ 0x39) := by
    funext b
    rw [isDigit, Bool.decide_and]
  rw [checkApplies, digit, Bool.and_eq_true, Bool.and_eq_true, and_assoc]
  simp only [List.contains_cons, List.contains_nil, Bool.or_false, Bool.or_eq_true, beq_iff_eq]

theorem duplicate_iff (u : LaneUnit) (text : List Byte) (now : Word32) : u.duplicate text now = true ↔
    u.acceptor.keySince = false ∧ ∃ lab, u.acceptor.last = some lab ∧ lab.text = text ∧
      (now - lab.time).toNat < msTicks u.settings.dupWindowMs := by
  unfold LaneUnit.duplicate
  split
  next none_ =>
    rw [none_]
    exact ⟨nofun, fun ⟨_, _, is, _⟩ => nomatch is⟩
  next lab is =>
    rw [is]
    simp only [Bool.and_eq_true, beq_iff_eq, Bool.not_eq_true', elapsedSince]
    constructor
    · rintro ⟨⟨same, fresh⟩, soon⟩
      exact ⟨fresh, lab, rfl, same.symm, of_decide_eq_true soon⟩
    · rintro ⟨fresh, _, ⟨⟩, same, soon⟩
      exact ⟨⟨same.symm, fresh⟩, decide_eq_true soon⟩

/-! ## What each judgement leaves (R62, R63, R65, R68, R70) -/

theorem booked_refuseLabel (s : State) (l : Lane) (p : Port) (why : RefuseReason) : Booked (s.lane l) ((s.refuseLabel l p why).lane l) :=
  (booked_offer s l l (.labelRefused p why)).trans (booked_count _ l l .labelsRefused)

theorem counted_refuseLabel (s : State) (l : Lane) (p : Port) (why : RefuseReason) : Counted s (s.refuseLabel l p why) l .labelsRefused :=
  counted_count (KeepsCounter.offer (by decide) l s _) (by rw [(booked_offer s l l _).1])

theorem Offers.refuseLabel (l : Lane) (s : State) (p : Port) (why : RefuseReason) :
    Offers l s (s.refuseLabel l p why) [.labelRefused p why] :=
  (Offers.offer l s _).trans (Offers.count l l _ .labelsRefused)

/-- The last label's time has moved to now (R68). -/
def LaneUnit.moved (now : Word32) (u : LaneUnit) : LaneUnit :=
  { u with acceptor := { u.acceptor with last := u.acceptor.last.map fun lab => { lab with time := now } } }

/-- The last label has moved and the duplicate is counted. -/
def State.suppressed (s : State) (l : Lane) : State := (s.modLane l (LaneUnit.moved s.run.clock)).count l .duplicates

theorem suppressLabel_eq {s : State} {l : Lane} {lab : LastLabel} (p : Port) (last : (s.lane l).acceptor.last = some lab) :
    s.suppressLabel l p = if ((s.lane l).portSettings p).reportDuplicates then
      (s.suppressed l).offer l (.labelDuplicate p (s.run.clock - lab.time)) else s.suppressed l := by
  unfold State.suppressLabel
  dsimp only
  rw [last]
  rfl

theorem booked_suppressLabel {s : State} {l : Lane} {lab : LastLabel} (p : Port) (last : (s.lane l).acceptor.last = some lab) :
    Booked ((s.lane l).moved s.run.clock) ((s.suppressLabel l p).lane l) := by
  have counted := booked_count (s.modLane l (LaneUnit.moved s.run.clock)) l l .duplicates
  rw [lane_modLane_same] at counted
  rw [suppressLabel_eq p last]
  split
  · exact counted.trans (booked_offer _ l l _)
  · exact counted

theorem counted_suppressLabel {s : State} {l : Lane} {lab : LastLabel} (p : Port) (last : (s.lane l).acceptor.last = some lab) :
    Counted s (s.suppressLabel l p) l .duplicates := by
  have moved : KeepsCounter .duplicates l s (s.modLane l (LaneUnit.moved s.run.clock)) := KeepsCounter.modLane rfl
  have counted := counted_count moved (by rw [lane_modLane_same]; rfl)
  rw [suppressLabel_eq p last]
  split
  · exact counted.after (KeepsCounter.offer (by decide) l _ _)
  · exact counted

theorem Offers.suppressLabel {s : State} {l : Lane} {lab : LastLabel} (p : Port) (last : (s.lane l).acceptor.last = some lab) :
    Offers l s (s.suppressLabel l p) (if ((s.lane l).portSettings p).reportDuplicates then
      [.labelDuplicate p (s.run.clock - lab.time)] else []) := by
  have counted : Offers l s (s.suppressed l) [] :=
    (Offers.modLane (l := l) (m := l) (f := LaneUnit.moved s.run.clock) rfl rfl).trans (Offers.count l l _ .duplicates)
  rw [suppressLabel_eq p last]
  split
  · exact counted.trans (Offers.offer l _ _)
  · exact counted

/-- The frame is the last accepted label (R70). -/
def LaneUnit.labelled (p : Port) (text : List Byte) (now : Word32) (u : LaneUnit) : LaneUnit :=
  { u with acceptor := { last := some { text := text, port := p, time := now }, keySince := false } }

/-- The label is accepted, counted and told of. -/
def State.told (s : State) (l : Lane) (f : Frame) (passed : Bool) : State :=
  ((s.modLane l (LaneUnit.labelled f.port f.text s.run.clock)).count l .labelsOk).offer l (.label f.port f.mark passed f.text)

/-- The tone of a port in confirm mode AUTO, and the idle timer, after an acceptance. -/
def State.cheered (s : State) (l : Lane) (p : Port) (c : PortSettings) : State :=
  (if c.hostConfirm then s else s.modPort l p fun q => q.startTone c false).restartIdle l

theorem acceptLabel_eq (s : State) (l : Lane) (f : Frame) (passed : Bool) :
    s.acceptLabel l f passed = (s.told l f passed).cheered l f.port ((s.lane l).portSettings f.port) := rfl

theorem booked_told (s : State) (l : Lane) (f : Frame) (passed : Bool) :
    Booked ((s.lane l).labelled f.port f.text s.run.clock) ((s.told l f passed).lane l) := by
  have counted := booked_count (s.modLane l (LaneUnit.labelled f.port f.text s.run.clock)) l l .labelsOk
  rw [lane_modLane_same] at counted
  exact counted.trans (booked_offer _ l l _)

theorem counted_told (s : State) (l : Lane) (f : Frame) (passed : Bool) : Counted s (s.told l f passed) l .labelsOk := by
  have labelled : KeepsCounter .labelsOk l s (s.modLane l (LaneUnit.labelled f.port f.text s.run.clock)) := KeepsCounter.modLane rfl
  exact (counted_count labelled (by rw [lane_modLane_same]; rfl)).after (KeepsCounter.offer (by decide) l _ _)

theorem Offers.told (l : Lane) (s : State) (f : Frame) (passed : Bool) :
    Offers l s (s.told l f passed) [.label f.port f.mark passed f.text] :=
  ((Offers.modLane (l := l) (m := l) (f := LaneUnit.labelled f.port f.text s.run.clock) rfl rfl).trans
    (Offers.count l l _ .labelsOk)).trans (Offers.offer l _ _)

/-- What is left of a lane by the tone and the idle timer that an acceptance starts. -/
theorem lane_cheered (s : State) (l : Lane) (p : Port) (c : PortSettings) : (s.cheered l p c).lane l =
    let u := if c.hostConfirm then s.lane l else (s.lane l).modPort p fun q => q.startTone c false
    if u.laneState = .active then { u with idle := u.settings.idlePeriod } else u := by
  have toned : (if c.hostConfirm then s else s.modPort l p fun q => q.startTone c false).lane l =
      if c.hostConfirm then s.lane l else (s.lane l).modPort p fun q => q.startTone c false := by
    split
    · rfl
    · exact lane_modPort ..
  rw [State.cheered, State.restartIdle, lane_modLane_same, toned]

theorem Offers.cheered (l : Lane) (s : State) (p : Port) (c : PortSettings) : Offers l s (s.cheered l p c) [] := by
  have idle (t : State) : Offers l t (t.restartIdle l) [] := Offers.modLane (by split <;> rfl) (by split <;> rfl)
  unfold State.cheered
  split
  · exact idle s
  · exact Offers.modPort.trans (idle _)

theorem cheered_fields (s : State) (l : Lane) (p : Port) (c : PortSettings) :
    (((s.cheered l p c).lane l).port p =
      if c.hostConfirm then (s.lane l).port p else ((s.lane l).port p).startTone c false) ∧
    ((s.cheered l p c).lane l).acceptor = (s.lane l).acceptor ∧ ((s.cheered l p c).lane l).counters = (s.lane l).counters ∧
    ((s.lane l).laneState = .active → ((s.cheered l p c).lane l).idle = (s.lane l).settings.idlePeriod) := by
  rw [lane_cheered]
  have idled (u : LaneUnit) : ∀ r, r = (if u.laneState = .active then { u with idle := u.settings.idlePeriod } else u) →
      r.port p = u.port p ∧ r.acceptor = u.acceptor ∧ r.counters = u.counters ∧
        (u.laneState = .active → r.idle = u.settings.idlePeriod) := by
    rintro _ rfl
    split
    next active => cases p <;> exact ⟨rfl, rfl, rfl, fun _ => rfl⟩
    next other => exact ⟨rfl, rfl, rfl, fun active => absurd active other⟩
  obtain ⟨port, acceptor, counters, idle⟩ :=
    idled (if c.hostConfirm then s.lane l else (s.lane l).modPort p fun q => q.startTone c false) _ rfl
  refine ⟨port.trans ?_, acceptor.trans ?_, counters.trans ?_, fun active => (idle ?_).trans ?_⟩
  · split
    · rfl
    · cases p <;> rfl
  all_goals cases c.hostConfirm <;> cases p <;> trivial

/-! ## The judgement (R61) -/

theorem Counted.ofModPort {s t : State} {l : Lane} {p : Port} {f : ScanPort → ScanPort} {c : Counter}
    (counted : Counted (s.modPort l p f) t l c) : Counted s t l c := by
  unfold Counted at counted ⊢
  rw [counted, lane_modPort]
  cases p <;> rfl

theorem endFrame_some {s : State} {l : Lane} {p : Port} (some_ : ((s.lane l).port p).text ≠ []) :
    s.endFrame l p = (s.modPort l p ScanPort.toWaiting).judge l (((s.lane l).port p).toFrame p) := if_neg some_

theorem judge_waiting (s : State) (l : Lane) (p : Port) (q : ScanPort) :
    let u := s.lane l
    let c := u.portSettings p
    let w := s.modPort l p ScanPort.toWaiting
    w.judge l (q.toFrame p) =
      if u.keylock.position = .lock then w.refuseLabel l p (.held q.text.length)
      else if q.damaged then w.refuseLabel l p (.damaged q.text.length)
      else if q.tooLong then w.refuseLabel l p (.long q.text.length)
      else if q.text.length < c.minLength then w.refuseLabel l p (.short q.text.length)
      else if checkApplies c q.text && !checkPasses q.text then w.refuseLabel l p (.check (expectedDigit q.text) q.text)
      else if u.duplicate q.text s.run.clock then w.suppressLabel l p
      else w.acceptLabel l (q.toFrame p) (checkApplies c q.text) := by
  intro u c w
  have lane : w.lane l = u.modPort p ScanPort.toWaiting := lane_modPort ..
  have keylock : (w.lane l).keylock = u.keylock := by
    rw [lane]
    cases p <;> rfl
  have settings : (w.lane l).portSettings p = c := by rw [lane, portSettings_modPort]
  have duplicate (text : List Byte) (now : Word32) : (w.lane l).duplicate text now = u.duplicate text now := by
    rw [lane]
    cases p <;> rfl
  unfold State.judge
  dsimp only [ScanPort.toFrame]
  simp only [keylock, settings, duplicate]
  rfl

theorem acceptor_booked {u v : LaneUnit} (h : Booked u v) : v.acceptor = u.acceptor := by rw [h.1]

/-- A refusal of the waiting port's frame: the port and the acceptor as they were, the refusal counted and told of. -/
theorem refused_waiting {s : State} (l : Lane) (p : Port) (why : RefuseReason) :
    let m := (s.modPort l p ScanPort.toWaiting).refuseLabel l p why
    (m.lane l).port p = ((s.lane l).port p).toWaiting ∧ (m.lane l).acceptor = (s.lane l).acceptor ∧ Counted s m l .labelsRefused ∧
      (s.roomy l → Produces s m l [.labelRefused p why]) := by
  intro m
  have booked : Booked _ (m.lane l) := booked_refuseLabel (s.modPort l p ScanPort.toWaiting) l p why
  refine ⟨(port_booked booked p).trans (port_modPort_same ..), (acceptor_booked booked).trans ?_,
    Counted.ofModPort (counted_refuseLabel _ l p why), fun room => ?_⟩
  · rw [lane_modPort]
    cases p <;> rfl
  · exact (Offers.modPort.trans (Offers.refuseLabel l _ p why)).makes (room.room.mono (Nat.le_of_ble_eq_true rfl))

/-- A duplicate at the waiting port: the last label's time has moved, the duplicate is counted and told of as the port's settings say. -/
theorem suppressed_waiting {s : State} {l : Lane} {lab : LastLabel} (p : Port) (last : (s.lane l).acceptor.last = some lab) :
    let m := (s.modPort l p ScanPort.toWaiting).suppressLabel l p
    (m.lane l).port p = ((s.lane l).port p).toWaiting ∧ (m.lane l).acceptor = ((s.lane l).moved s.run.clock).acceptor ∧
      Counted s m l .duplicates ∧ Offers l s m (if ((s.lane l).portSettings p).reportDuplicates then
        [.labelDuplicate p (s.run.clock - lab.time)] else []) ∧
      (((s.lane l).portSettings p).reportDuplicates = false → m.staging = s.staging) := by
  intro m
  have lane : (s.modPort l p ScanPort.toWaiting).lane l = (s.lane l).modPort p ScanPort.toWaiting := lane_modPort ..
  have last' : ((s.modPort l p ScanPort.toWaiting).lane l).acceptor.last = some lab := by
    rw [lane, ← last]
    cases p <;> rfl
  have booked := booked_suppressLabel p last'
  have offers := Offers.modPort.trans (Offers.suppressLabel p last')
  rw [lane] at booked offers
  rw [portSettings_modPort] at offers
  refine ⟨(port_booked booked p).trans ?_, (acceptor_booked booked).trans ?_,
    Counted.ofModPort (counted_suppressLabel p last'), offers, fun silent => ?_⟩
  · cases p <;> rfl
  · cases p <;> rfl
  · have is := suppressLabel_eq p last'
    rw [lane, portSettings_modPort, silent, if_neg Bool.false_ne_true] at is
    rw [show m = _ from is, State.suppressed, count_staging]
    rfl

/-- An acceptance at the waiting port: the frame is the last label, counted and told of, the tone of an AUTO port and an ACTIVE lane's
idle timer are started. -/
theorem accepted_waiting {s : State} (l : Lane) (f : Frame) (passed : Bool) :
    let u := s.lane l
    let c := u.portSettings f.port
    let m := (s.modPort l f.port ScanPort.toWaiting).acceptLabel l f passed
    ((m.lane l).port f.port =
      if c.hostConfirm then (u.port f.port).toWaiting else (u.port f.port).toWaiting.startTone c false) ∧
    (m.lane l).acceptor = { last := some { text := f.text, port := f.port, time := s.run.clock }, keySince := false } ∧
    Counted s m l .labelsOk ∧ (u.laneState = .active → (m.lane l).idle = u.settings.idlePeriod) ∧
    Offers l s m [.label f.port f.mark passed f.text] := by
  intro u c m
  have lane : (s.modPort l f.port ScanPort.toWaiting).lane l = u.modPort f.port ScanPort.toWaiting := lane_modPort ..
  have booked := booked_told (s.modPort l f.port ScanPort.toWaiting) l f passed
  have counted := Counted.ofModPort (counted_told (s.modPort l f.port ScanPort.toWaiting) l f passed)
  have accepts : m = ((s.modPort l f.port ScanPort.toWaiting).told l f passed).cheered l f.port c := by
    rw [show m = _ from acceptLabel_eq .., lane, portSettings_modPort]
  have offers := ((Offers.modPort (l := l) (m := l) (s := s) (p := f.port) (f := ScanPort.toWaiting)).trans (Offers.told l _ f passed)).trans (Offers.cheered l _ f.port c)
  obtain ⟨port, acceptor, counters, idle⟩ :=
    cheered_fields ((s.modPort l f.port ScanPort.toWaiting).told l f passed) l f.port c
  rw [← accepts] at port acceptor counters idle offers
  rw [lane] at booked
  have told : (((s.modPort l f.port ScanPort.toWaiting).told l f passed).lane l).port f.port = (u.port f.port).toWaiting := by
    rw [port_booked booked]
    cases f.port <;> rfl
  refine ⟨by rw [port, told], acceptor.trans (acceptor_booked booked), ?_, fun active => (idle ?_).trans ?_, offers⟩
  · unfold Counted at counted ⊢
    rw [counters, counted]
  · rw [booked.1, ← active]
    cases f.port <;> rfl
  · rw [booked.1]
    cases f.port <;> rfl

/-- Settles O45: the branches of the judgement, each at the port that waits again. -/
theorem labelJudged : Obligations.LabelJudged := by
  unfold Obligations.LabelJudged
  intro s l p ch u c q n digits applies sum digit passes dup done refused on high frame some_ ends held sound
  have ran := execCharacter_ends on high ends
  have framed := (LaneStep.takeChar l s p (receiveChar c.format ch).1 (receiveChar c.format ch).2).toLaneFrame
  have judged := judge_waiting s l p q
  have digitIs : expectedDigit q.text = digit := expectedDigit_eq q.text
  have passesIs : checkPasses q.text = true ↔ passes := by rw [checkPasses_iff, digitIs]
  have appliesIs : checkApplies c q.text = true ↔ applies := checkApplies_iff c q.text
  have dupIs : u.duplicate q.text s.run.clock = true ↔ dup := duplicate_iff u q.text s.run.clock
  have bad : (checkApplies c q.text && !checkPasses q.text) = true ↔ applies ∧ ¬passes := by
    rw [Bool.and_eq_true, Bool.not_eq_true', ← Bool.not_eq_true, appliesIs, passesIs]
  dsimp only at judged
  rw [← endFrame_some some_] at judged
  rw [takeChar_assembling _ _ frame, if_pos ends] at ran framed
  have refuses {why : RefuseReason} (is : s.endFrame l p = (s.modPort l p ScanPort.toWaiting).refuseLabel l p why) : refused why :=
    ⟨_, _, ran, settle_frame _, framed, by rw [is]; exact refused_waiting l p why⟩
  have passing : sound → s.endFrame l p = if u.duplicate q.text s.run.clock then
      (s.modPort l p ScanPort.toWaiting).suppressLabel l p else
      (s.modPort l p ScanPort.toWaiting).acceptLabel l (q.toFrame p) (checkApplies c q.text) := by
    rintro ⟨free, whole, fits, long, checked⟩
    rw [judged, if_neg free, if_neg (Bool.eq_false_iff.1 whole), if_neg (Bool.eq_false_iff.1 fits), if_neg (Nat.not_lt.2 long),
      if_neg fun h => (bad.1 h).2 (checked (bad.1 h).1)]
  refine ⟨fun locked => refuses ?_, fun free damaged => refuses ?_, fun free whole long => refuses ?_,
    fun free whole fits short => refuses ?_, fun free whole fits long applied failed => ?_, fun ok again => ?_, fun ok fresh => ?_⟩
  · rw [judged, if_pos locked]
  · rw [judged, if_neg free, if_pos damaged]
  · rw [judged, if_neg free, if_neg (Bool.eq_false_iff.1 whole), if_pos long]
  · rw [judged, if_neg free, if_neg (Bool.eq_false_iff.1 whole), if_neg (Bool.eq_false_iff.1 fits), if_pos short]
  · rw [← digitIs]
    apply refuses
    rw [judged, if_neg free, if_neg (Bool.eq_false_iff.1 whole), if_neg (Bool.eq_false_iff.1 fits), if_neg (Nat.not_lt.2 long),
      if_pos (bad.2 ⟨applied, failed⟩)]
  · have is := passing ok
    rw [if_pos (dupIs.2 again)] at is
    obtain ⟨_, lab, last, _, _⟩ := again
    obtain ⟨port, acceptor, counted, offers, silence⟩ := suppressed_waiting p last
    rw [← is] at port acceptor counted offers silence
    refine ⟨_, _, ran, settle_frame _, framed, port, acceptor, counted, fun reports room lab' last' => ?_, silence⟩
    obtain rfl := Option.some.inj (last.symm.trans last')
    rw [if_pos (by exact reports)] at offers
    exact offers.makes (room.room.mono (Nat.le_of_ble_eq_true rfl))
  · have is := passing ok
    rw [if_neg (mt dupIs.1 fresh)] at is
    have accepted := accepted_waiting (s := s) l (q.toFrame p) (checkApplies c q.text)
    rw [show (q.toFrame p).port = p from rfl] at accepted
    obtain ⟨port, acceptor, counted, idle, offers⟩ := accepted
    rw [← is] at port acceptor counted idle offers
    refine ⟨_, _, ran, settle_frame _, framed, port, acceptor, counted, idle, fun room => ?_⟩
    have same : decide applies = checkApplies c q.text := by
      rw [← Bool.decide_coe (checkApplies c q.text)]
      exact decide_eq_decide.2 appliesIs.symm
    rw [same]
    exact offers.makes (room.room.mono (Nat.le_of_ble_eq_true rfl))

end Sys2Proof.Machine
end

section
/-! PROOFS. The drawer's sensor and its timers (O47, O48, O49): each expiry is a quiet change of the drawer and at most one event of the
controller behind it. -/

namespace Sys2Proof.Machine

/-! ## A drawer event behind a quiet change of the drawer -/

theorem modDrawer_eq (s : State) (l : Lane) (g : Drawer → Drawer) :
    s.modDrawer l g = s.setLane l { s.lane l with drawer := g (s.lane l).drawer } := rfl

theorem lane_modDrawer (s : State) (l : Lane) (g : Drawer → Drawer) :
    (s.modDrawer l g).lane l = { s.lane l with drawer := g (s.lane l).drawer } := lane_modLane_same s l _

theorem modDrawer_modDrawer (s : State) (l : Lane) (g f : Drawer → Drawer) :
    (s.modDrawer l g).modDrawer l f = s.modDrawer l fun d => f (g d) := by
  rw [modDrawer_eq, lane_modDrawer, modDrawer_eq, modDrawer_eq, setLane_setLane]

theorem roomy_modDrawer {s : State} {l : Lane} {g : Drawer → Drawer} : (s.modDrawer l g).roomy l ↔ s.roomy l := by
  unfold State.roomy
  rw [lane_modDrawer]
  rfl

theorem Produces.aside {s t : State} {l : Lane} {g : Drawer → Drawer} {bs : List RecordBody}
    (made : Produces (s.modDrawer l g) t l bs) : Produces s t l bs := by
  unfold Produces at made ⊢
  rw [lane_modDrawer] at made
  exact made

theorem LaneStays.aside {s t : State} {l : Lane} {g : Drawer → Drawer} (stays : LaneStays (s.modDrawer l g) t l) : LaneStays s t l := by
  unfold LaneStays at stays ⊢
  rw [lane_modDrawer] at stays
  exact stays

/-- The event `f` behind the quiet change `g`, which leaves the condition: one event of the controller. -/
theorem drawerMoved_behind {s : State} {l : Lane} {g f : Drawer → Drawer} (cause : DrawerCause) (value : Word32)
    (quietOk : (s.lane l).drawer.ok → (g (s.lane l).drawer).ok)
    (eventOk : (g (s.lane l).drawer).ok → (f (g (s.lane l).drawer)).ok)
    (kept : (g (s.lane l).drawer).cond = (s.lane l).drawer.cond) :
    DrawerMoved s ((s.modDrawer l g).drawerEvent l f cause value) l (f (g (s.lane l).drawer)) cause value := by
  have aside : (s.lane l).Aside { s.lane l with drawer := g (s.lane l).drawer } := rfl
  have moved := drawerMoved_drawerEvent (s := s.modDrawer l g) (l := l) (f := f) cause value (by rw [lane_modDrawer]; exact eventOk)
  have drawer : ((s.modDrawer l g).lane l).drawer = g (s.lane l).drawer := by rw [lane_modDrawer]
  rw [drawer] at moved
  obtain ⟨frame, is, rewrite, stays, wakes⟩ := moved
  rw [drawer, kept] at stays wakes
  refine ⟨(LaneStep.modDrawer quietOk).toLaneFrame.trans frame, is, rewrite, fun same => ?_, fun moved => ?_⟩
  · obtain ⟨still, made⟩ := stays same
    exact ⟨still.aside, fun room => (made (roomy_modDrawer.2 room)).aside⟩
  · obtain ⟨woken, made⟩ := wakes moved
    refine ⟨woken.aside aside, fun room => ?_⟩
    rw [← show (s.modDrawer l g).wakeRecords l .drawer = s.wakeRecords l .drawer from
      wakeRecords_aside (f := fun u => { u with drawer := g u.drawer }) .drawer aside]
    exact (made (roomy_modDrawer.2 room)).aside

/-- The counters but two stand where a drawer event leaves them. -/
theorem keepsCounter_drawerEvent {s : State} {l : Lane} {f : Drawer → Drawer} {cause : DrawerCause} {value : Word32} {c : Counter}
    (ok : (s.lane l).drawer.ok → (f (s.lane l).drawer).ok) (refused : c ≠ .labelsRefused) (lost : c ≠ .lost) :
    KeepsCounter c l s (s.drawerEvent l f cause value) := by
  obtain ⟨-, -, -, -, kept, -, -⟩ := drawerEvent_spec s l f cause value ok
  exact kept c refused lost

/-! ## The sensor settles (R78, R81 to R83, R86) -/

/-- The settled state has taken the reading. -/
def Drawer.settleAs (isOpen : Bool) (d : Drawer) : Drawer := { d with settledOpen := isOpen, settle := none }

theorem execSensorSettle_due {s : State} {l : Lane} (due : (s.lane l).drawer.settle = some 0) :
    exec (.drawerSensorSettleExpiry l) s = .next (s.settleSensor l).settle := if_pos ((isDue_iff _).2 due)

theorem settleSensor_open {s : State} {l : Lane} (raw : (s.lane l).drawer.rawOpen = true) :
    s.settleSensor l = (s.modDrawer l (Drawer.settleAs true)).sensorOpen l := by
  unfold State.settleSensor
  rw [raw]
  rfl

theorem settleSensor_closed {s : State} {l : Lane} (raw : (s.lane l).drawer.rawOpen = false) :
    s.settleSensor l = (s.modDrawer l (Drawer.settleAs false)).sensorClosed l := by
  unfold State.settleSensor
  rw [raw]
  rfl

theorem sensorOpen_kicking {s : State} {l : Lane} (cond : (s.lane l).drawer.cond = .kicking) : s.sensorOpen l =
    s.drawerEvent l (fun d => d.endKick.openAt (s.lane l).settings.drawer s.run.clock .isOpen) .kick
      (s.run.clock - (s.lane l).drawer.kickStart) := by
  unfold State.sensorOpen
  dsimp only
  rw [cond]

theorem sensorOpen_jammed {s : State} {l : Lane} (cond : (s.lane l).drawer.cond = .jammed) : s.sensorOpen l =
    s.drawerEvent l (fun d => d.openAt (s.lane l).settings.drawer s.run.clock .isOpen) .late
      (s.run.clock - (s.lane l).drawer.kickStart) := by
  unfold State.sensorOpen
  dsimp only
  rw [cond]

theorem sensorOpen_closed {s : State} {l : Lane} (cond : (s.lane l).drawer.cond = .closed) : s.sensorOpen l =
    if (s.lane l).keylock.position = .service then
      s.drawerEvent l (fun d => d.openAt (s.lane l).settings.drawer s.run.clock .isOpen) .manual 0
    else s.forcedOpening l := by
  unfold State.sensorOpen
  dsimp only
  rw [cond]

theorem sensorOpen_none {s : State} {l : Lane} (cond : (s.lane l).drawer.cond = .isOpen ∨ (s.lane l).drawer.cond = .ajar ∨
    (s.lane l).drawer.cond = .forced ∨ (s.lane l).drawer.cond = .absent) : s.sensorOpen l = s := by
  unfold State.sensorOpen
  obtain is | is | is | is := cond <;> (dsimp only; rw [is])

theorem sensorClosed_open {s : State} {l : Lane} (cond : (s.lane l).drawer.cond = .isOpen ∨ (s.lane l).drawer.cond = .ajar ∨
    (s.lane l).drawer.cond = .forced) :
    s.sensorClosed l = s.drawerEvent l Drawer.close .close (s.run.clock - (s.lane l).drawer.openedAt) := by
  unfold State.sensorClosed
  obtain is | is | is := cond <;> (dsimp only; rw [is])

theorem sensorClosed_none {s : State} {l : Lane} (cond : (s.lane l).drawer.cond = .closed ∨ (s.lane l).drawer.cond = .kicking ∨
    (s.lane l).drawer.cond = .jammed ∨ (s.lane l).drawer.cond = .absent) : s.sensorClosed l = s := by
  unfold State.sensorClosed
  obtain is | is | is | is := cond <;> (dsimp only; rw [is])

theorem compareRaw_eq (d : Drawer) (c : DrawerSettings) :
    d.compareRaw c = { d with settle := if d.rawOpen = d.settledOpen then none else some (msTicks c.settleMs) } := by
  unfold Drawer.compareRaw
  split <;> rfl

theorem rawChange_same {d : Drawer} {isOpen : Bool} (c : DrawerSettings) (same : d.rawOpen = isOpen) : d.rawChange c isOpen = d :=
  if_pos same

theorem rawChange_moved {d : Drawer} {isOpen : Bool} (c : DrawerSettings) (moved : d.rawOpen ≠ isOpen) : d.rawChange c isOpen =
    if d.running && d.measuring.isNone then ({ d with rawOpen := isOpen } : Drawer).compareRaw c else { d with rawOpen := isOpen } :=
  if_neg moved

/-- Settles O47: a change of the reading by the controller's state, the expiry by the condition. -/
theorem drawerSensor : Obligations.DrawerSensor := by
  unfold Obligations.DrawerSensor
  intro s l isOpen u c d opened settles
  have changes : exec (.drawerSensorChange l isOpen) s = .next (s.setLane l { u with drawer := d.rawChange c isOpen }) := rfl
  have open_ (raw : d.rawOpen = true) := settleSensor_open (s := s) raw
  have closed_ (raw : d.rawOpen = false) := settleSensor_closed (s := s) raw
  have openLane := lane_modDrawer s l (Drawer.settleAs true)
  have closedLane := lane_modDrawer s l (Drawer.settleAs false)
  have openDrawer : ((s.modDrawer l (Drawer.settleAs true)).lane l).drawer.cond = d.cond := by rw [openLane]; rfl
  have closedDrawer : ((s.modDrawer l (Drawer.settleAs false)).lane l).drawer.cond = d.cond := by rw [closedLane]; rfl
  have settled {d' : Drawer} {cause : DrawerCause} {value : Word32} (due : d.settle = some 0) (elsewhere : d'.cond ≠ d.cond)
      (moved : DrawerMoved s (s.settleSensor l) l d' cause value) : settles d' cause value :=
    ⟨_, _, execSensorSettle_due due, settle_frame _, moved.frame, moved.drawer, moved.rewrite, moved.wakes elsewhere⟩
  refine ⟨fun moved running calm => ?_, fun moved idle => ?_, fun same => ?_, fun idle => ?_, fun due raw => ⟨fun cond => ?_,
    fun cond => ?_, fun cond service => ?_⟩, fun due raw cond => ?_, fun due cond => ?_⟩
  · rw [changes, rawChange_moved c moved, running, calm, compareRaw_eq]
    rfl
  · rw [changes, rawChange_moved c moved, if_neg]
    obtain stopped | measuring := idle
    · simp [stopped]
    · simp [measuring]
  · rw [changes, rawChange_same c same, setLane_lane]
  · exact if_neg fun due => idle ((isDue_iff _).1 due)
  · refine settled due (by rw [cond]; exact nofun) ?_
    rw [open_ raw, sensorOpen_kicking (openDrawer.trans cond), openLane]
    exact drawerMoved_behind _ _ id (endKick_openAt_ok _ _) rfl
  · refine settled due (by rw [cond]; exact nofun) ?_
    rw [open_ raw, sensorOpen_jammed (openDrawer.trans cond), openLane]
    exact drawerMoved_behind _ _ id (fun ok => openAt_ok _ _ _ (by decide) ok (by rw [Drawer.settleAs, cond]; exact nofun)) rfl
  · refine settled due (by rw [cond]; exact nofun) ?_
    rw [open_ raw, sensorOpen_closed (openDrawer.trans cond), openLane, if_pos (by exact service)]
    exact drawerMoved_behind _ _ id (fun ok => openAt_ok _ _ _ (by decide) ok (by rw [Drawer.settleAs, cond]; exact nofun)) rfl
  · have elsewhere : d.cond ≠ .closed ∧ d.cond ≠ .kicking := by
      obtain is | is | is := cond <;> rw [is] <;> decide
    refine settled due (Ne.symm elsewhere.1) ?_
    rw [closed_ raw, sensorClosed_open (by rw [closedDrawer]; exact cond), closedLane]
    exact drawerMoved_behind _ _ id (fun ok => close_ok ok elsewhere.2) rfl
  · refine ⟨_, _, execSensorSettle_due due, settle_frame _, ?_⟩
    obtain ⟨raw, cond⟩ | ⟨raw, cond⟩ := cond
    · rw [open_ raw, sensorOpen_none (by rw [openDrawer]; exact cond), ← raw]
      rfl
    · rw [closed_ raw, sensorClosed_none (by rw [closedDrawer]; exact cond), ← raw]
      rfl

end Sys2Proof.Machine
end

section
/-! PROOFS. The forced opening and the drawer's timers (O48, O49). -/

namespace Sys2Proof.Machine

/-! ## The history of a forced opening (R84) -/

theorem updateHistory_eq (history : List Word32) (window : Nat) (now : Word32) : updateHistory history window now =
    let kept := history.filter fun e => decide ((now - e).toNat < window)
    kept.drop (kept.length - 7) ++ [now] := by
  unfold updateHistory
  dsimp only
  split
  next few => rw [Nat.sub_eq_zero_of_le (by omega), List.drop_zero]
  next => rfl

/-- The lockout count calls for the latch. -/
def Drawer.locksAt (d : Drawer) (c : DrawerSettings) (n : Nat) : Bool :=
  decide (c.lockoutCount ≠ 0 ∧ d.latch = false ∧ c.lockoutCount ≤ n)

theorem forceOpen_eq {d : Drawer} {c : DrawerSettings} {now : Word32} {h : List Word32}
    (history : updateHistory d.history (minTicks c.lockoutMin) now = h) : d.forceOpen c now =
      { d.openAt c now .forced with
        history := if d.locksAt c h.length then [] else h, latch := d.latch || d.locksAt c h.length } := by
  unfold Drawer.forceOpen Drawer.locksAt
  dsimp only
  rw [history]
  split
  next locks => rw [decide_eq_true locks, if_pos rfl, Bool.or_true]
  next free =>
    rw [decide_eq_false free, if_neg Bool.false_ne_true, Bool.or_false]
    rfl

theorem latches_iff (d : Drawer) (c : DrawerSettings) (n : Nat) :
    (d.latch = false ∧ (d.latch || d.locksAt c n) = true) ↔ d.locksAt c n = true := by
  unfold Drawer.locksAt
  rw [decide_eq_true_iff]
  constructor
  · rintro ⟨unlatched, latched⟩
    rw [unlatched, Bool.false_or] at latched
    rw [unlatched]
    exact of_decide_eq_true latched
  · intro locks
    exact ⟨locks.2.1, by rw [decide_eq_true locks, Bool.or_true]⟩

/-! ## The forced opening (R83, R84) -/

/-- What a forced opening leaves of its lane and its counter, and what it offers. -/
theorem forcedOpening_spec {s : State} {l : Lane} {h : List Word32} (cond : (s.lane l).drawer.cond = .closed)
    (history : updateHistory (s.lane l).drawer.history (minTicks (s.lane l).settings.drawer.lockoutMin) s.run.clock = h) :
    let d := (s.lane l).drawer
    let c := (s.lane l).settings.drawer
    let locks := d.locksAt c h.length
    let m := s.forcedOpening l
    (m.lane l).drawer = { d.openAt c s.run.clock .forced with
      history := if locks then [] else h, latch := d.latch || locks } ∧
      (m.lane l).rewrite = true ∧ Counted s m l .forced ∧ WokenBy s m l .drawer ∧
      Offers l s m (s.wakeRecords l .drawer ++ .drawer .forced .closed .forced (d.latch || locks) d.ajarFault (word h.length) ::
        if locks then [.drawer .forced .forced .lockout true d.ajarFault (word h.length)] else []) := by
  intro d c locks m
  have ok (k : (s.lane l).drawer.ok) : (d.forceOpen c s.run.clock).ok := forceOpen_ok c s.run.clock k (by rw [cond]; exact nofun)
  have is : d.forceOpen c s.run.clock = _ := forceOpen_eq history
  obtain ⟨drawer, rewrite, -, woken, kept, offers, frame⟩ :=
    drawerEvent_spec s l (fun d => d.forceOpen c s.run.clock) .forced (word h.length) ok
  have moved : (d.forceOpen c s.run.clock).cond ≠ d.cond := by
    rw [is, cond]
    exact nofun
  rw [if_neg moved] at woken offers
  obtain ⟨a, eventIs⟩ : ∃ a, a = s.drawerEvent l (fun d => d.forceOpen c s.run.clock) .forced (word h.length) := ⟨_, rfl⟩
  rw [← eventIs] at drawer rewrite woken kept offers frame
  have booked := booked_count a l l .forced
  have counted := counted_count (kept .forced (by decide) (by decide)) (frame.settings l).2.1
  have told : m = if d.latch = false ∧ ((a.count l .forced).lane l).drawer.latch = true then
      (a.count l .forced).offer l (((a.count l .forced).lane l).drawer.record .forced .lockout (word h.length))
      else a.count l .forced := by
    rw [eventIs, ← history]
    rfl
  have drawer' : ((a.count l .forced).lane l).drawer = d.forceOpen c s.run.clock := by
    rw [booked.1]
    exact drawer
  have woken' : WokenBy s (a.count l .forced) l .drawer := woken.after booked
    (KeepsCounter.count (c := .forced) (d := .labelsRefused) (by decide) l a)
  have offers' := offers.trans (Offers.count l l a .forced)
  have latched : (d.latch = false ∧ (d.forceOpen c s.run.clock).latch = true) ↔ locks = true := by
    rw [is]
    exact latches_iff d c h.length
  have first : (d.forceOpen c s.run.clock).record d.cond .forced (word h.length) =
      .drawer .forced .closed .forced (d.latch || locks) d.ajarFault (word h.length) := by
    rw [is, show d.cond = .closed from cond]
    rfl
  rw [drawer'] at told
  rw [first, List.append_nil] at offers'
  by_cases lock : locks = true
  · have second : (d.forceOpen c s.run.clock).record .forced .lockout (word h.length) =
        .drawer .forced .forced .lockout true d.ajarFault (word h.length) := by
      rw [Drawer.record, (latched.2 lock).2, is]
      rfl
    rw [if_pos (latched.2 lock), second] at told
    rw [told]
    have booked' := booked_offer (a.count l .forced) l l (.drawer .forced .forced .lockout true d.ajarFault (word h.length))
    refine ⟨?_, booked'.2 (booked.2 rewrite), counted.after (KeepsCounter.offer (by decide) l _ _),
      woken'.after booked' (KeepsCounter.offer (d := .labelsRefused) (by decide) l _ _), ?_⟩
    · rw [booked'.1]
      exact drawer'.trans is
    · have both := offers'.trans (Offers.offer l (a.count l .forced) (.drawer .forced .forced .lockout true d.ajarFault (word h.length)))
      rw [List.append_assoc] at both
      rw [if_pos lock]
      exact both
  · rw [if_neg (mt latched.1 lock)] at told
    rw [told]
    exact ⟨drawer'.trans is, booked.2 rewrite, counted, woken', by rw [if_neg lock]; exact offers'⟩

/-- Settles O48: the settled sensor state is taken, and the forced opening follows. -/
theorem forcedOpening : Obligations.ForcedOpening := by
  unfold Obligations.ForcedOpening
  intro s l u c d now kept h locks due raw cond other
  have aside : (s.lane l).Aside { s.lane l with drawer := (s.lane l).drawer.settleAs true } := rfl
  have lane := lane_modDrawer s l (Drawer.settleAs true)
  have cond' : ((s.modDrawer l (Drawer.settleAs true)).lane l).drawer.cond = .closed := by rw [lane]; exact cond
  have opens : s.settleSensor l = (s.modDrawer l (Drawer.settleAs true)).forcedOpening l := by
    rw [settleSensor_open raw, sensorOpen_closed cond', if_neg]
    rw [lane]
    exact other
  have ran := execSensorSettle_due due
  obtain ⟨drawer, rewrite, counted, woken, offers⟩ := forcedOpening_spec (h := h) cond' (by rw [lane]; exact updateHistory_eq ..)
  rw [← opens] at drawer rewrite counted woken offers
  replace offers := (Offers.aside (f := fun u => { u with drawer := u.drawer.settleAs true }) aside).trans offers
  rw [show (s.modDrawer l (Drawer.settleAs true)).wakeRecords l .drawer = s.wakeRecords l .drawer from
    wakeRecords_aside (f := fun u => { u with drawer := u.drawer.settleAs true }) .drawer aside, List.nil_append] at offers
  rw [lane] at drawer offers
  refine ⟨_, _, ran, settle_frame _, (LaneWork.settleSensor l s).step.toLaneFrame, drawer, ?_,
    woken.aside (f := fun u => { u with drawer := u.drawer.settleAs true }) aside, rewrite, fun room => offers.makes (room.room.mono ?_)⟩
  · unfold Counted at counted ⊢
    rw [lane] at counted
    exact counted
  · have wake := wakeRecords_length_le s l .drawer
    rw [List.length_append, List.length_cons]
    split
    · rw [List.length_singleton]
      omega
    · rw [List.length_nil]
      omega

/-! ## The timers (R80, R81, R85, R87 to R89) -/

theorem not_due_and {t : Timer} {stage : Prop} (idle : t ≠ some 0 ∨ ¬stage) : ¬(isDue t = true ∧ stage) :=
  fun ⟨due, at_⟩ => idle.elim (fun not => not ((isDue_iff _).1 due)) fun not => not at_

/-- The measurement ends and the test fails. -/
def Drawer.failed (c : DrawerSettings) (d : Drawer) : Drawer := (d.endMeasure c).failTest

/-- The measurement ends and the test passes. -/
def Drawer.passed (c : DrawerSettings) (d : Drawer) : Drawer := { d.endMeasure c with failCount := 0 }

theorem endMeasure_eq (d : Drawer) (c : DrawerSettings) : d.endMeasure c = { d with
    measuring := none
    presence := if secTicks c.presenceS = 0 then none else some (secTicks c.presenceS)
    settle := if d.rawOpen = d.settledOpen then none else some (msTicks c.settleMs) } := compareRaw_eq ..

theorem failed_eq (d : Drawer) (c : DrawerSettings) :
    d.failed c = { d.endMeasure c with failCount := min 2 (d.failCount + 1) } := by
  rw [Drawer.failed, Drawer.failTest, endMeasure_eq]

theorem failed_ok {d : Drawer} (c : DrawerSettings) (h : d.ok) : (d.failed c).ok := by
  obtain ⟨latch, kick, history, -⟩ := endMeasure_ok c h
  exact ⟨latch, kick, history, Nat.min_le_left ..⟩

theorem passed_ok {d : Drawer} (c : DrawerSettings) (h : d.ok) : (d.passed c).ok := by
  obtain ⟨latch, kick, history, -⟩ := endMeasure_ok c h
  exact ⟨latch, kick, history, Nat.zero_le _⟩

/-- What the end of a measurement makes of its lane. -/
def State.measured (s : State) (l : Lane) (followed : Bool) : State :=
  (s.modDrawer l fun d => d.endMeasure (s.lane l).settings.drawer).testResult l followed

theorem execMeasurementEnd_due {s : State} {l : Lane} (followed : Bool) (due : (s.lane l).drawer.measuring = some 0) :
    exec (.presenceMeasurementEnd l followed) s = .next (s.measured l followed).settle := if_pos ((isDue_iff _).2 due)

theorem measured_failed (s : State) (l : Lane) : s.measured l true =
    let t := s.modDrawer l (Drawer.failed (s.lane l).settings.drawer)
    if min 2 ((s.lane l).drawer.failCount + 1) = 2 ∧ (s.lane l).drawer.cond ≠ .absent then t.drawerEvent l Drawer.toAbsent .absent 0
    else t := by
  unfold State.measured State.testResult
  dsimp only
  rw [if_pos rfl, modDrawer_modDrawer, lane_modDrawer, lane_modDrawer]
  dsimp only [Drawer.failTest]
  rw [endMeasure_eq]
  rfl

theorem measured_passed (s : State) (l : Lane) : s.measured l false =
    let t := s.modDrawer l (Drawer.passed (s.lane l).settings.drawer)
    if (s.lane l).drawer.cond = .absent then
      t.drawerEvent l (fun d => d.leaveAbsent (s.lane l).settings.drawer s.run.clock) .present 0
    else t := by
  unfold State.measured State.testResult
  dsimp only
  rw [if_neg Bool.false_ne_true, modDrawer_modDrawer, lane_modDrawer]
  dsimp only
  rw [endMeasure_eq]
  rfl

/-- Settles O49: each timer due and not due, by the condition it acts in. -/
theorem drawerTimers : Obligations.DrawerTimers := by
  unfold Obligations.DrawerTimers
  refine ⟨fun s l => ?_, fun s l followed => ?_⟩
  · intro u d
    refine ⟨fun due => if_pos ((isDue_iff _).2 due), fun idle => if_neg fun due => idle ((isDue_iff _).1 due), fun due cond => ?_,
      fun idle => if_neg (not_due_and idle), fun due stage cond => ?_, fun due stage cond => ?_, fun due stage => ?_,
      fun idle => if_neg (not_due_and idle), fun idle => if_neg (not_due_and idle)⟩
    · have moved := drawerMoved_drawerEvent (s := s) (l := l)
        (f := fun d => { d.endKick with cond := .jammed }) .timeout (word d.confirmTicks) jammed_ok
      obtain ⟨frame, drawer, rewrite, -, wakes⟩ := moved.count (c := .jams) (by decide)
      obtain ⟨woken, made⟩ := wakes (by rw [cond]; exact nofun)
      rw [show (s.lane l).drawer.cond = .kicking from cond] at made
      exact ⟨_, _, if_pos ⟨(isDue_iff _).2 due, cond⟩, settle_frame _, frame, drawer,
        counted_count (keepsCounter_drawerEvent jammed_ok (by decide) (by decide)) (moved.frame.settings l).2.1, woken, rewrite, made⟩
    · have is : s.alertMark l = s.drawerEvent l (fun d => { d with cond := .ajar, stage := .faultPending, alert := none }) .ajar
          (word d.alertTicks) := if_pos cond
      obtain ⟨frame, drawer, rewrite, -, wakes⟩ := drawerMoved_drawerEvent (s := s) (l := l)
        (f := fun d => { d with cond := .ajar, stage := .faultPending, alert := none }) .ajar (word d.alertTicks)
        fun ok => ok.still (by rw [cond]; exact nofun) nofun rfl rfl rfl
      obtain ⟨woken, made⟩ := wakes (by rw [cond]; exact nofun)
      rw [show (s.lane l).drawer.cond = .isOpen from cond] at made
      rw [← is] at frame drawer rewrite woken made
      exact ⟨_, _, if_pos ⟨(isDue_iff _).2 due, stage⟩, settle_frame _, frame, drawer, rewrite, woken, made⟩
    · exact ⟨_, _, if_pos ⟨(isDue_iff _).2 due, stage⟩, settle_frame _, if_neg cond⟩
    · obtain ⟨frame, drawer, rewrite, stays, -⟩ := drawerMoved_drawerEvent (s := s) (l := l)
        (f := fun d => { d with ajarFault := true, stage := .none, faultMark := none }) .ajarFault (word d.faultTicks) id
      obtain ⟨still, made⟩ := stays rfl
      exact ⟨_, _, if_pos ⟨(isDue_iff _).2 due, stage⟩, settle_frame _, frame, drawer, rewrite, still, made⟩
  · intro u c d restarted ends quiet
    have endsAs {cause : DrawerCause} {d' : Drawer} (due : d.measuring = some 0) (elsewhere : d'.cond ≠ d.cond)
        (moved : DrawerMoved s (s.measured l followed) l d' cause 0) : ends d' cause := by
      obtain ⟨frame, drawer, rewrite, -, wakes⟩ := moved
      exact ⟨_, _, execMeasurementEnd_due followed due, settle_frame _, frame, drawer, rewrite, wakes elsewhere⟩
    have restarts : d.endMeasure c = restarted := endMeasure_eq d c
    have fails : d.failed c = { restarted with failCount := min 2 (d.failCount + 1) } := by rw [failed_eq, restarts]
    have passes : d.passed c = { restarted with failCount := 0 } := by rw [Drawer.passed, restarts]
    have quietly {g : Drawer → Drawer} (due : d.measuring = some 0) (is : s.measured l followed = s.modDrawer l g) :
        quiet (g d) := ⟨_, _, execMeasurementEnd_due followed due, settle_frame _, is⟩
    have condFailed : (d.failed c).cond = d.cond := by rw [fails]
    have condPassed : (d.passed c).cond = d.cond := by rw [passes]
    have leaves (absent : d.cond = .absent) : DrawerMoved s (s.measured l false) l
        (Drawer.leaveAbsent { restarted with failCount := 0 } c s.run.clock) .present 0 := by
      have moved := drawerMoved_behind (s := s) (l := l) (g := Drawer.passed c) (f := fun d => d.leaveAbsent c s.run.clock) .present 0
        (passed_ok c) (fun ok => leaveAbsent_ok _ _ ok (by rw [condPassed, absent]; exact nofun)) condPassed
      rw [← (measured_passed s l).trans (if_pos absent), show (s.lane l).drawer.passed c = _ from passes] at moved
      exact moved
    refine ⟨fun due => if_pos ((isDue_iff _).2 due), fun idle => if_neg fun due => idle ((isDue_iff _).1 due),
      fun idle => if_neg fun due => idle ((isDue_iff _).1 due), fun due followed first => ?_, fun due followed again present => ?_,
      fun due followed again absent => ?_, fun due clear present => ?_, fun due clear absent shut => ?_,
      fun due clear absent stands => ?_⟩
    · subst followed
      have failing := quietly due ((measured_failed s l).trans (if_neg fun second => ?_))
      · rw [fails, first] at failing
        exact failing
      · rw [show (s.lane l).drawer.failCount = 0 from first] at second
        exact absurd second.1 (by decide)
    · subst followed
      have second : min 2 (d.failCount + 1) = 2 := by omega
      refine endsAs due (fun same => present same.symm) ?_
      have moved := drawerMoved_behind (s := s) (l := l) (g := Drawer.failed c) (f := Drawer.toAbsent) .absent 0 (failed_ok c)
        toAbsent_ok condFailed
      rw [← (measured_failed s l).trans (if_pos ⟨second, present⟩), show (s.lane l).drawer.failed c = _ from fails, second] at moved
      exact moved
    · subst followed
      have second : min 2 (d.failCount + 1) = 2 := by omega
      have failing := quietly due ((measured_failed s l).trans (if_neg fun newly => newly.2 absent))
      rw [fails, second] at failing
      exact failing
    · subst clear
      have passing := quietly due ((measured_passed s l).trans (if_neg present))
      rw [passes] at passing
      exact passing
    · subst clear
      have moved := leaves absent
      refine endsAs due (by rw [absent]; exact nofun) ?_
      rw [Drawer.leaveAbsent, if_neg (by exact Bool.eq_false_iff.1 shut)] at moved
      exact moved
    · subst clear
      have moved := leaves absent
      refine endsAs due (by rw [absent]; exact nofun) ?_
      rw [Drawer.leaveAbsent, if_pos (by exact stands)] at moved
      exact moved

end Sys2Proof.Machine
end
